-- ==== Sys2Proof/Word.lean ====
section
/-! DEFINITION. The word types of the NVF-240: bytes as the ports and frames carry them, addresses of the memory port,
and station numbers. -/

namespace Sys2Proof

/-- One byte of a frame, a header, a record or a payload. -/
abbrev Byte := BitVec 8

/-- A host memory address, as a ring setup or a handle carries it (R200, R205). -/
abbrev Addr := BitVec 64

/-- A station number on the peer link, 0..7 (00_scope.md section 1.1; R183). -/
abbrev Station := Fin 8

end Sys2Proof
end

