-- ==== Sys2Proof/Syntax.lean ====
section
/-! DEFINITION. The commands of the block: one constructor of `Instr` for each row of spec/opcode_table.json, with the
operands the row's rule reads from outside. -/

namespace Sys2Proof

/-- The two landing buffer classes (R154). -/
inductive BufClass where
  | small
  | large
  deriving DecidableEq, Repr

/-- The name of an object: session tag, then object number (R3 c, R200 a). -/
structure Tag where
  session : BitVec 32
  object : BitVec 32
  deriving DecidableEq, Repr

/-- The host's name for a landing buffer; the part keeps the class with it (R154). "Two copies of one handle taken from a ring are
two handles to the part, and each is accounted on its own" (R154): `copy` is the model's number of the ring entry that brought the
handle (log 42), which tells copies apart and stands in no byte. -/
structure Handle where
  cls : BufClass
  addr : Addr
  index : BitVec 24
  copy : Nat
  deriving DecidableEq, Repr

/-- A correctly framed frame as the receiver took it from the medium (R85): class and station of the arbitration field, kind
byte, body and CRC field. The length field is the number of body bytes. -/
structure HeardFrame where
  cls : BitVec 2
  src : Station
  kind : Byte
  body : List Byte
  crc : BitVec 16
  deriving DecidableEq, Repr

/-- A value that a read of host memory answers, with the address it was read at (R156, R160, R181). -/
structure HostRead (α : Type) where
  addr : Addr
  value : α
  deriving DecidableEq, Repr

/-- The commands. Each constructor is one row of the opcode table; its docstring names the row's rule. -/
inductive Instr where
  /-- PIN_RESET (R185). -/
  | pinReset
  /-- PIN_RESET_RELEASE (R186): the strap pins as they stand at the release. -/
  | pinResetRelease (straps : Station)
  /-- SEGMENT_HEADER (R10): the last of the 32 header bytes. -/
  | segmentHeader (byte : Byte)
  /-- TABLE_WALK_DONE (R30). -/
  | tableWalkDone
  /-- CLOSE_FLAG (R5): GOOD or BAD. -/
  | closeFlag (good : Bool)
  /-- PAYLOAD_BYTE (R16). -/
  | payloadByte (byte : Byte)
  /-- DISCARD_BYTE (R1). -/
  | discardByte (byte : Byte)
  /-- DISCARD_FLAG (R8). -/
  | discardFlag (good : Bool)
  /-- LANDING_FLAG (R18). -/
  | landingFlag (good : Bool)
  /-- INTAKE_ROOM_GRANTED (R173). -/
  | intakeRoomGranted
  /-- VALID_IDLE (R84). -/
  | validIdle
  /-- ARBITRATION_LOST (R92). -/
  | arbitrationLost
  /-- FRAME_SENT (R93). -/
  | frameSent
  /-- COLLISION (R102). -/
  | collision
  /-- FALSE_START (R88). -/
  | falseStart
  /-- LONG_FRAME (R88). -/
  | longFrame
  /-- BAD_FRAME (R89): the framed frame whose CRC or form is at fault. -/
  | badFrame (frame : HeardFrame)
  /-- LINK_SETTLE_DONE (R95). -/
  | linkSettleDone
  /-- HOLD_TIMER_EXPIRY (R96). -/
  | holdTimerExpiry
  /-- BEACON_POINT (R98). -/
  | beaconPoint
  /-- PRESENCE_EXPIRY (R101): the peer whose countdown expires. -/
  | presenceExpiry (peer : Station)
  /-- BEACON_HEARD (R100). -/
  | beaconHeard (frame : HeardFrame)
  /-- ANSWER_HEARD (R86). -/
  | answerHeard (frame : HeardFrame)
  /-- CLAIM_HEARD (R110). -/
  | claimHeard (frame : HeardFrame)
  /-- REASSERT_HEARD (R119). -/
  | reassertHeard (frame : HeardFrame)
  /-- RELEASE_HEARD (R122). -/
  | releaseHeard (frame : HeardFrame)
  /-- TALLY_RECEIVED (R134). -/
  | tallyReceived (frame : HeardFrame)
  /-- VERDICT_RECEIVED (R141). -/
  | verdictReceived (frame : HeardFrame)
  /-- BATCH_DELAY_EXPIRY (R130): the table index of the feeder. -/
  | batchDelayExpiry (slot : Nat)
  /-- SETTLE_EXPIRY (R42): the table index of the claiming context. -/
  | settleExpiry (slot : Nat)
  /-- ANCHOR_IDLE_EXPIRY (R61). -/
  | anchorIdleExpiry (slot : Nat)
  /-- FEEDER_IDLE_EXPIRY (R62). -/
  | feederIdleExpiry (slot : Nat)
  /-- VERDICT_TIMER_EXPIRY (R148). -/
  | verdictTimerExpiry (slot : Nat)
  /-- HOLD_WAIT_EXPIRY (R144). -/
  | holdWaitExpiry (slot : Nat)
  /-- SETUP_PART (R190). -/
  | setupPart (frame : HeardFrame)
  /-- GO (R191). -/
  | go (frame : HeardFrame)
  /-- POWER_TABLE_READY (R27). -/
  | powerTableReady
  /-- QUERY (R194). -/
  | query (frame : HeardFrame)
  /-- ABORT (R195). -/
  | abort (frame : HeardFrame)
  /-- QUIESCE (R196). -/
  | quiesce (frame : HeardFrame)
  /-- RESUME (R196). -/
  | resume (frame : HeardFrame)
  /-- COUNTERS (R197). -/
  | counters (frame : HeardFrame)
  /-- RESTART (R198). -/
  | restart (frame : HeardFrame)
  /-- BAD_COMMAND (R187). -/
  | badCommand (frame : HeardFrame)
  /-- RESTART_GATHER (R166). -/
  | restartGather
  /-- PRODUCER_WORD_ARRIVES (R160): the value read for a class at a host address. -/
  | producerWordArrives (cls : BufClass) (word : HostRead (BitVec 32))
  /-- RING_ENTRY_ARRIVES (R160): the 16 bytes read for a class at a host address. -/
  | ringEntryArrives (cls : BufClass) (entry : HostRead (List Byte))
  /-- CONSUMER_WORD_WRITTEN (R160). -/
  | consumerWordWritten (cls : BufClass)
  /-- NOTICE_WRITE_BEGIN (R180). -/
  | noticeWriteBegin
  /-- NOTICE_WRITE_END (R180). -/
  | noticeWriteEnd
  /-- PAYLOAD_WRITE_DONE (R164): the oldest `count` payload bytes in flight for a handle are in host memory. -/
  | payloadWriteDone (handle : Handle) (count : Nat)
  /-- CONSUMER_POLL_EXPIRY (R181). -/
  | consumerPollExpiry
  /-- CONSUMER_WORD_ARRIVES (R181): the value read for the notice unit at a host address. -/
  | consumerWordArrives (word : HostRead (BitVec 32))
  /-- HEADER_BYTE (R1): a header byte other than the last. -/
  | headerByte (byte : Byte)
  /-- CLOSE_PAYLOAD_BYTE (R1). -/
  | closePayloadByte (byte : Byte)
  /-- MEDIUM_LEAVES_VALID_IDLE (R87): `begins` says whether this station drives the first dominant bit, alone or with others. -/
  | mediumLeavesValidIdle (begins : Bool)
  deriving DecidableEq, Repr

end Sys2Proof
end

