-- ==== Sys2Proof/Decode.lean ====
section
/-! DEFINITION. The decoder over the opcode table's bits. No row of spec/opcode_table.json gives bits: every command reaches the block
at a pin, a port or as a timed event, and a COMMAND frame is spelled by its body (Machine/Operands.lean). -/

namespace Sys2Proof

/-- The command that `nbits` bits of the word `w` spell by the table's bits: no row gives any, so none. -/
def decodeTableWord (_nbits _w : Nat) : Option Instr :=
  none

end Sys2Proof
end

