-- ==== Sys2Proof/Config.lean ====
section
/-! DEFINITION. The capacities of 00_scope.md section 3 and the free values of the model. -/

namespace Sys2Proof.Config

/-- Object table slots (R38). -/
def tableSlots : Nat := 256
/-- Extent records of the pool (R69). -/
def extentRecords : Nat := 4096
/-- Pending pool entries (R127). -/
def pendingEntries : Nat := 256
/-- Block reservations, the unresolved blocks of a station (R14, R172). -/
def blockReservations : Nat := 192
/-- Provisional blocks of one claiming context (R43). -/
def provisionalBlocks : Nat := 8
/-- Claim cache entries (R109). -/
def cacheEntries : Nat := 512
/-- Retired list tags (R112). -/
def retiredTags : Nat := 64
/-- Notice queue records (R170). -/
def noticeRecords : Nat := 512
/-- Ceiling of queued FRONT, STATION and RETURN records for a further FRONT or STATION (R174). -/
def unreservedCeiling : Nat := 64
/-- Handles of one buffer cache (R157). -/
def cacheHandles : Nat := 16
/-- A class with fewer cached handles than this, and an empty stack, is refilled (R159). -/
def refillBelow : Nat := 4
/-- Entries of one tally (R132). -/
def tallyEntries : Nat := 8
/-- Sends of one tally (R148). -/
def tallySends : Nat := 3
/-- Link settle time in microseconds (R95). -/
def linkSettle : Nat := 40
/-- Beacon interval before the first GO, in microseconds (R98, R105). -/
def beaconDefault : Nat := 100
/-- Beacon intervals of the hold timer (R96). -/
def holdIntervals : Nat := 8
/-- Beacon intervals of an absence countdown (R100). -/
def absenceIntervals : Nat := 4
/-- Microseconds between two reads of the notice ring's consumer word (R181). -/
def pollTime : Nat := 8
/-- Microseconds of one unit of the idle limit (R61). -/
def idleUnit : Nat := 10000
/-- The largest value of a 16-bit saturating count (R21, R40, R100, R177). -/
def countMax : Nat := 65535

/-- FREE VALUE (log 7). R182: after a pin reset that abandons a record write, "The entry may hold part of a record". Whether byte
`i` of the abandoned record stands in host memory at the `n`-th use of the free counter. -/
opaque abandonedByte (n i : Nat) : Bool

/-- FREE VALUE (log 7). R160: at a pin reset, "The consumer word is written or not as the CONSUMER stage had reached." -/
opaque abandonedConsumerWord (n : Nat) (cls : BufClass) : Bool

end Sys2Proof.Config
end

