-- ==== Sys2Proof/Machine/State.lean ====
section
/-! DEFINITION. Every piece of state the data book gives one NVF-240 station, as plain data, and its value after pin reset.
INVENTORY.md lists the fields with the rule that names each. -/

namespace Sys2Proof.Machine

/-! ## Timers -/

/-- A timer on the 1 µs base (00_scope.md section 4, "Time"): stopped, running towards a deadline on the clock `now`, or
suspended with the time it had left (R97). -/
inductive Timer where
  | stopped
  | running (deadline : Nat)
  | suspended (left : Nat)
  deriving DecidableEq, Repr

/-! ## Objects -/

/-- One extent of a coverage list: the run `first .. first + count - 1` (R66, R67). -/
structure Extent where
  first : Nat
  count : Nat
  deriving DecidableEq, Repr

/-- How an object ended at its anchor (section 3.5, "Outcomes"). -/
inductive ObjOutcome where
  | verified | mismatch | shape | overrun | closeConflict | stalled | aborted | split
  deriving DecidableEq, Repr

/-- Why a feeder context was orphaned (R151). -/
inductive OrphanReason where
  | anchorAbsent | anchorLost | unresponsive | faulted
  deriving DecidableEq, Repr

/-- A landed block that waits for its fate: a provisional block (R43) or a pending BLOCK entry (R127). It holds one block
reservation. -/
structure BlockItem where
  block : Nat
  length : Nat
  sum : Nat
  handle : Handle
  deriving DecidableEq, Repr

/-- The close record of an anchor (R45); the final length is not formed when there is no block. -/
structure CloseRec where
  length : Nat
  fold : Nat
  blocks : Nat
  final : Option Nat
  deriving DecidableEq, Repr

/-- The states of an anchor (R41). -/
inductive AnchorState where
  | claiming | opened | closing
  deriving DecidableEq, Repr

/-- The anchor's part of a context (R39). The front is formed from the coverage list (R60). -/
structure Anchor where
  state : AnchorState
  accepted : Nat
  sum : Nat
  close : Option CloseRec
  /-- block number and length of a short block (R50) -/
  shortMark : Option (Nat × Nat)
  lastFront : Nat
  /-- BLOCK notices the context wrote as a feeder before R147 made it an anchor (R126, R175) -/
  noticed : Nat
  provisional : List BlockItem
  /-- bit s for station s (R65) -/
  feeders : BitVec 8
  feederLost : Bool
  claimOwed : Bool
  /-- the stage "sent" of R115 -/
  claimSent : Bool
  settle : Timer
  deriving DecidableEq, Repr

/-- The kinds of pending entry (R127). -/
inductive EntryBody where
  | block (item : BlockItem)
  | close (length fold sizeCode : Nat)
  deriving DecidableEq, Repr

/-- A pending entry with the time it joined its context, from which its waiting time runs (R127). -/
structure Entry where
  body : EntryBody
  joined : Nat
  deriving DecidableEq, Repr

/-- The stages of an outstanding tally at its sender (R133). -/
inductive TallyStage where
  | queued | awaiting | holding
  deriving DecidableEq, Repr

/-- A feeder's outstanding tally (R129, R132, R133). Its entries are the context's first `size` entries (R127). `timer` is the
verdict timer in AWAITING and the hold wait in HOLDING. -/
structure Tally where
  dest : Station
  seq : BitVec 8
  size : Nat
  sends : Nat
  /-- bit s for station s -/
  visited : BitVec 8
  stage : TallyStage
  timer : Timer
  deriving DecidableEq, Repr

/-- The states of a feeder (R126). -/
inductive FeederState where
  | feeding | releaseWait
  deriving DecidableEq, Repr

/-- The feeder's part of a context (R39, R126). -/
structure Feeder where
  state : FeederState
  anchor : Station
  noticed : Nat
  /-- arrival order, oldest first -/
  entries : List Entry
  tally : Option Tally
  /-- the visited set of the tally whose entries a MOVED returned to unsent (R145); none when it holds no such entries -/
  moved : Option (BitVec 8)
  deriving DecidableEq, Repr

/-- "A field marked for one role is absent in a context of the other role" (R39). -/
inductive Role where
  | anchor (a : Anchor)
  | feeder (f : Feeder)
  deriving DecidableEq, Repr

/-- One context of the object table (R39, R40). -/
structure Context where
  tag : Tag
  sizeCode : Nat
  cover : List Extent
  localDup : Nat
  peerDup : Nat
  refused : Nat
  idle : Timer
  role : Role
  deriving DecidableEq, Repr

/-- A slot of the object table that is not FREE (R38). -/
inductive Slot where
  | live (ctx : Context)
  | owing (tag : Tag) (outcome : ObjOutcome)
  deriving DecidableEq, Repr

/-! ## Segment intake -/

/-- The five states of the intake (R8). -/
inductive IntakeState where
  | awaitHeader | deciding | held | landing | discarding
  deriving DecidableEq, Repr

/-- The two segment kinds (R3). -/
inductive SegKind where
  | data | close
  deriving DecidableEq, Repr

/-- The fields of a segment header (R3, R200). -/
structure SegHeader where
  kind : SegKind
  sizeCode : Nat
  tag : Tag
  block : Nat
  length : Nat
  objLength : Nat
  fold : Nat
  deriving DecidableEq, Repr

/-- The request a HELD intake waits with (R173). -/
inductive RoomRequest where
  | endOrphan | block
  deriving DecidableEq, Repr

/-- The segment the intake holds (section 1.3). -/
structure Segment where
  hdr : SegHeader
  session : Nat
  slot : Option Nat
  extentRes : Bool
  pendingRes : Bool
  blockRes : Bool
  handle : Option Handle
  /-- payload bytes taken so far -/
  taken : Nat
  /-- the block sum from the fold unit, once the payload has ended (R32) -/
  sum : Option Nat
  /-- a CLOSE whose flag has been taken (R5) -/
  flagTaken : Bool
  request : Option RoomRequest
  /-- the waiting request has been granted and the intake resumes at step 3 (R173) -/
  granted : Bool
  deriving DecidableEq, Repr

/-- The segment intake (R8, R9). -/
@[ext] structure Intake where
  state : IntakeState
  headerBytes : List Byte
  seg : Option Segment
  /-- the handle of the segment RESTART moved from LANDING to DISCARDING (R166 item 3) -/
  returning : Option Handle
  deriving DecidableEq, Repr

/-! ## Fold unit -/

/-- The states of the power table (R27). -/
inductive TableState where
  | empty | building | ready
  deriving DecidableEq, Repr

/-- The fold unit (R27 to R33). -/
@[ext] structure FoldUnit where
  table : TableState
  entries : List Nat
  acc : Nat
  power : Option Nat
  odd : Option Byte
  /-- the first exponent e while the table walk is still being made (R30) -/
  walk : Option Nat
  /-- payload bytes that wait for the walk (R30) -/
  waiting : List Byte
  /-- payload bytes folded so far, at most the header's payload length (R31) -/
  folded : Nat
  deriving DecidableEq, Repr

/-! ## Frames this part sends -/

/-- A verdict code for one tally entry (R203). -/
inductive EntryCode where
  | accept | duplicate | refused | ended
  deriving DecidableEq, Repr

/-- The verdict of a tally: one code per entry, or one for the whole (R136). -/
inductive Verdict where
  | perEntry (codes : List EntryCode)
  | hold
  | moved (x : Station)
  | retired
  | unknown
  deriving DecidableEq, Repr

/-- A VERDICT body (R140, R203); also a verdict memory record (R135). -/
structure VerdictBody where
  tag : Tag
  seq : BitVec 8
  dest : Station
  verdict : Verdict
  deriving DecidableEq, Repr

/-- An entry of a TALLY body (R202). -/
inductive TallyEntry where
  | block (block length sum : Nat) (index : BitVec 24)
  | close (length fold sizeCode : Nat)
  deriving DecidableEq, Repr

/-- A TALLY body (R132, R202). -/
structure TallyBody where
  tag : Tag
  seq : BitVec 8
  dest : Station
  sizeCode : Nat
  entries : List TallyEntry
  deriving DecidableEq, Repr

/-- A frame this part queues (R86). An ANSWER is held as its body (R204). -/
inductive Frame where
  | reassert (tag : Tag)
  | verdict (v : VerdictBody)
  | claim (tag : Tag)
  | release (tag : Tag) (outcome : ObjOutcome)
  | tally (t : TallyBody)
  | beacon (station : Station) (count : BitVec 8)
  | answer (body : List Byte)
  deriving DecidableEq, Repr

/-! ## Link controller -/

/-- The link states (R95). -/
inductive LinkState where
  | seeking | settling | synced
  deriving DecidableEq, Repr

/-- The receiver's place (R87, R88, R102). -/
inductive Receiver where
  | listening | taking | ignoring
  deriving DecidableEq, Repr

/-- The frame on the wire (R91). `queued` is false once RESTART has emptied its queue (R105); `withdraw` is a withdrawal
request kept with it (R94). -/
structure Wire where
  cls : Fin 4
  frame : Frame
  queued : Bool
  withdraw : Bool
  deriving DecidableEq, Repr

/-- One presence entry (R100). -/
structure Presence where
  present : Bool
  countdown : Timer
  lastBeacon : Option (BitVec 8)
  missed : Nat
  deriving DecidableEq, Repr

/-- The link controller (05, opening list; R105). -/
@[ext] structure Link where
  state : LinkState
  settle : Timer
  hold : Timer
  nextPoint : Timer
  lastPoint : Option Nat
  beaconCount : BitVec 8
  mediumIdle : Bool
  receiver : Receiver
  queues : Vector (List Frame) 4
  wire : Option Wire
  presence : Vector Presence 8
  strike : Bool
  deriving DecidableEq, Repr

/-! ## Notices -/

/-- The kinds of station event (R177). -/
inductive StationEvent where
  | syncLost | peerPresent | peerAbsent | linkFault
  deriving DecidableEq, Repr

/-- What an OBJECT-END notice carries (R56, R175); `close` is the L and E of the close it carries. -/
structure EndReport where
  tag : Tag
  outcome : ObjOutcome
  sizeCode : Nat
  accepted : Nat
  sum : Nat
  front : Nat
  close : Option (Nat × Nat)
  localDup : Nat
  peerDup : Nat
  refused : Nat
  feeders : BitVec 8
  feederLost : Bool
  deriving DecidableEq, Repr

/-- A pending STATION latch (R177), and the content of the STATION notice it becomes. -/
structure Latch where
  event : StationEvent
  concerned : Station
  /-- bit s for station s -/
  set : BitVec 8
  count : Nat
  deriving DecidableEq, Repr

/-- A notice record as queued (R175). -/
inductive Notice where
  | block (tag : Tag) (anchor : Station) (item : BlockItem)
  | front (tag : Tag) (front : Nat)
  | objectEnd (r : EndReport)
  | orphaned (tag : Tag) (reason : OrphanReason) (noticed recycled : Nat)
  | returned (cls : BufClass) (handles : List Handle)
  | station (l : Latch)
  deriving DecidableEq, Repr

/-- The record write in progress (R180). `queued` is false once RESTART has discarded the queue it headed (R182). -/
structure RecordWrite where
  notice : Notice
  queued : Bool
  deriving DecidableEq, Repr

/-- The reading of the notice ring's consumer word (R181). -/
inductive Poll where
  | idle
  | reading
  | waiting (timer : Timer)
  deriving DecidableEq, Repr

/-- The notice unit (R170, R177, R179, R180). -/
@[ext] structure NoticeUnit where
  queue : List Notice
  re : Nat
  rb : Nat
  /-- pending latches, oldest first, at most one for each event kind -/
  latches : List Latch
  writing : Option RecordWrite
  poll : Poll
  pn : Nat
  cn : Nat
  deriving DecidableEq, Repr

/-! ## Buffer manager -/

/-- The stages of a refill (R160): `held` is the cache count at its start, `total` its R, `got` the entries arrived. -/
inductive Refill where
  | idle
  | producer (held : Nat)
  | entries (total got : Nat)
  | consumer (total : Nat)
  deriving DecidableEq, Repr

/-- One class of the buffer manager (08, opening list). -/
@[ext] structure BufferPool where
  cache : List Handle
  stack : List Handle
  cons : Nat
  refill : Refill
  deriving DecidableEq, Repr

/-- A payload byte on its way to host memory (R164). -/
structure PayloadWrite where
  handle : Handle
  addr : Addr
  data : Byte
  deriving DecidableEq, Repr

/-! ## Command unit -/

/-- The station modes (R184). -/
inductive Mode where
  | waitingSetup | running | quiesced | faulted | restarting
  deriving DecidableEq, Repr

/-- A ring group of the setup (R205). -/
structure RingSetup where
  base : Addr
  size : Nat
  producer : Addr
  consumer : Addr
  deriving DecidableEq, Repr

/-- The admission filter modes (R6, R7). -/
inductive FilterMode where
  | named | opened
  deriving DecidableEq, Repr

/-- The accepted setup, after the clamps of GO (R189, R192). Times are in microseconds, the idle limit in units of 10 ms. -/
structure Setup where
  weight : Nat
  smallSize : Nat
  extentCap : Nat
  frontStep : Nat
  idleLimit : Nat
  ringSmall : RingSetup
  ringLarge : RingSetup
  ringNotice : RingSetup
  beaconInterval : Nat
  claimSettle : Nat
  verdictTimeout : Nat
  batchDelay : Nat
  filterMode : FilterMode
  filterTags : List (BitVec 32)
  deriving DecidableEq, Repr

/-- The command unit (10, opening list). -/
@[ext] structure CommandUnit where
  mode : Mode
  staging : Vector (Option (List Byte)) 4
  setup : Option Setup
  memory : Option (Byte × List Byte)
  counters : Vector Nat 16
  restartNumber : Byte
  faultAtEnd : Bool
  faultPin : Bool
  deriving DecidableEq, Repr

/-! ## The station and the whole state -/

/-- One station: everything a pin reset clears, with the model's clock and free counter. -/
@[ext] structure Chip where
  /-- the RESET pin is asserted -/
  inReset : Bool
  self : Station
  /-- the model's clock in microseconds (log 2) -/
  now : Nat
  /-- the model's counter for free values (log 7) -/
  freeIndex : Nat
  cmd : CommandUnit
  fold : FoldUnit
  intake : Intake
  link : Link
  /-- the slots that are not FREE, by rising table index -/
  slots : List (Nat × Slot)
  extFree : Nat
  pendFree : Nat
  /-- oldest first -/
  cache : List (Tag × Station)
  /-- oldest first -/
  retired : List Tag
  nextSeq : Vector (BitVec 8) 8
  pair : Vector (Option Nat) 8
  verdicts : Vector (Option VerdictBody) 8
  small : BufferPool
  large : BufferPool
  notice : NoticeUnit
  payloadWrites : List PayloadWrite
  /-- the model's count of the ring entries read since pin reset, which tells two copies of one handle apart (R154; log 42) -/
  handlesTaken : Nat
  deriving DecidableEq, Repr

/-- Host memory as this part has written it: (address, byte) pairs, addresses strictly rising (log 6). -/
abbrev Memory := List Host.Cell

/-- The whole state: the station, what it has written to host memory, and the queue of waiting commands. -/
@[ext]
structure State where
  chip : Chip
  mem : Memory
  pending : List Instr
  deriving DecidableEq, Repr

/-- No command stops the machine with a fault: the data book gives every command an effect, or says that it has none
(FAULTED is a station mode, R103). The type has no constructor, which is safe: nothing is left out by it. -/
inductive Fault where
  deriving DecidableEq, Repr

/-- The refusals. -/
inductive Refusal where
  /-- Raised by `exec` alone, for a command that has no meaning yet; no arm raises it. Safe. -/
  | notModelled (mnemonic : String)
  deriving DecidableEq, Repr

/-! ## Pin reset -/

/-- The command unit after pin reset (R185). -/
def CommandUnit.reset : CommandUnit :=
  { mode := .waitingSetup, staging := Vector.replicate 4 none, setup := none, memory := none,
    counters := Vector.replicate 16 0, restartNumber := 0, faultAtEnd := false, faultPin := false }

/-- The fold unit after pin reset (R28). -/
def FoldUnit.reset : FoldUnit :=
  { table := .empty, entries := [], acc := 0, power := none, odd := none, walk := none, waiting := [], folded := 0 }

/-- The intake after pin reset (R9). -/
def Intake.reset : Intake :=
  { state := .awaitHeader, headerBytes := [], seg := none, returning := none }

/-- A presence entry after pin reset (R100). -/
def Presence.reset : Presence :=
  { present := false, countdown := .stopped, lastBeacon := none, missed := 0 }

/-- The link controller after pin reset (R105). -/
def Link.reset : Link :=
  { state := .seeking, settle := .stopped, hold := .stopped, nextPoint := .stopped, lastPoint := none, beaconCount := 0,
    mediumIdle := false, receiver := .listening, queues := Vector.replicate 4 [], wire := none,
    presence := Vector.replicate 8 Presence.reset, strike := false }

/-- One class of the buffer manager after pin reset (R156, R157, R162). -/
def BufferPool.reset : BufferPool :=
  { cache := [], stack := [], cons := 0, refill := .idle }

/-- The notice unit after pin reset (R170, R177, R179). -/
def NoticeUnit.reset : NoticeUnit :=
  { queue := [], re := 0, rb := 0, latches := [], writing := none, poll := .idle, pn := 0, cn := 0 }

/-- The station under an asserted RESET pin (R185, R186): its straps are not read yet (log 4, log 5). -/
def Chip.reset : Chip :=
  { inReset := true, self := 0, now := 0, freeIndex := 0, cmd := CommandUnit.reset, fold := FoldUnit.reset,
    intake := Intake.reset, link := Link.reset, slots := [], extFree := Config.extentRecords,
    pendFree := Config.pendingEntries, cache := [], retired := [], nextSeq := Vector.replicate 8 0,
    pair := Vector.replicate 8 none, verdicts := Vector.replicate 8 none, small := BufferPool.reset,
    large := BufferPool.reset, notice := NoticeUnit.reset, payloadWrites := [],
    handlesTaken := 0 }

/-- The machine right after reset: RESET asserted, host memory not written, no command waiting. -/
def State.reset : State :=
  { chip := Chip.reset, mem := [], pending := [] }

/-! ## Named updates, one for each field -/

namespace Chip

def withInReset (c : Chip) (x : Bool) : Chip := { c with inReset := x }
def withSelf (c : Chip) (x : Station) : Chip := { c with self := x }
def withNow (c : Chip) (x : Nat) : Chip := { c with now := x }
def withFreeIndex (c : Chip) (x : Nat) : Chip := { c with freeIndex := x }
def withCmd (c : Chip) (x : CommandUnit) : Chip := { c with cmd := x }
def withFold (c : Chip) (x : FoldUnit) : Chip := { c with fold := x }
def withIntake (c : Chip) (x : Intake) : Chip := { c with intake := x }
def withLink (c : Chip) (x : Link) : Chip := { c with link := x }
def withSlots (c : Chip) (x : List (Nat × Slot)) : Chip := { c with slots := x }
def withExtFree (c : Chip) (x : Nat) : Chip := { c with extFree := x }
def withPendFree (c : Chip) (x : Nat) : Chip := { c with pendFree := x }
def withCache (c : Chip) (x : List (Tag × Station)) : Chip := { c with cache := x }
def withRetired (c : Chip) (x : List Tag) : Chip := { c with retired := x }
def withNextSeq (c : Chip) (x : Vector (BitVec 8) 8) : Chip := { c with nextSeq := x }
def withPair (c : Chip) (x : Vector (Option Nat) 8) : Chip := { c with pair := x }
def withVerdicts (c : Chip) (x : Vector (Option VerdictBody) 8) : Chip := { c with verdicts := x }
def withSmall (c : Chip) (x : BufferPool) : Chip := { c with small := x }
def withLarge (c : Chip) (x : BufferPool) : Chip := { c with large := x }
def withNotice (c : Chip) (x : NoticeUnit) : Chip := { c with notice := x }
def withPayloadWrites (c : Chip) (x : List PayloadWrite) : Chip := { c with payloadWrites := x }
def withHandlesTaken (c : Chip) (x : Nat) : Chip := { c with handlesTaken := x }

end Chip

namespace State

def withChip (s : State) (x : Chip) : State := { s with chip := x }
def withMem (s : State) (x : Memory) : State := { s with mem := x }
def withPending (s : State) (x : List Instr) : State := { s with pending := x }

end State

end Sys2Proof.Machine
end

