-- ==== Sys2Proof/Machine/Bytes.lean ====
section
/-! DEFINITION. Byte order: "Multi-byte fields are sent and stored most significant byte first" (11_formats.md, opening), and
the bounded counts of the station. -/

namespace Sys2Proof.Machine

/-- The number a byte string holds, most significant byte first. -/
def beNat (bs : List Byte) : Nat :=
  bs.foldl (fun a b => a * 256 + b.toNat) 0

/-- The `n` bytes of a number, most significant byte first. -/
def beBytes : Nat → Nat → List Byte
  | 0, _ => []
  | n + 1, x => BitVec.ofNat 8 (x / 256 ^ n) :: beBytes n x

/-- Byte `i`; a byte that is not there reads as 0 (R190: a short part "leaves the missing bytes 0"). -/
def byteAt (bs : List Byte) (i : Nat) : Byte :=
  bs.getD i 0

/-- The `n`-byte field at offset `off`. -/
def field (bs : List Byte) (off n : Nat) : Nat :=
  beNat ((List.range n).map fun i => byteAt bs (off + i))

/-- `n` zero bytes. -/
def zeros (n : Nat) : List Byte :=
  List.replicate n 0

/-- A tag as eight bytes: session tag, then object number (R200 a). -/
def tagBytes (t : Tag) : List Byte :=
  beBytes 4 t.session.toNat ++ beBytes 4 t.object.toNat

/-- The tag at offset `off` (R200 a). -/
def tagAt (bs : List Byte) (off : Nat) : Tag :=
  { session := BitVec.ofNat 32 (field bs off 4), object := BitVec.ofNat 32 (field bs (off + 4) 4) }

/-- One more on a 16-bit count that stays at 65535 once there (R21, R40, R100, R177). -/
def countUp (n : Nat) : Nat :=
  min (n + 1) Config.countMax

/-- `k` more on such a count. -/
def countAdd (n k : Nat) : Nat :=
  min (n + k) Config.countMax

/-- The set with station `x` added; bit s stands for station s (R206). -/
def addStation (set : BitVec 8) (x : Station) : BitVec 8 :=
  set ||| (1#8 <<< x.val)

/-- Station `x` is in the set. -/
def hasStation (set : BitVec 8) (x : Station) : Bool :=
  set.getLsbD x.val

/-- The station numbers in ascending order. -/
def stations : List Station :=
  [0, 1, 2, 3, 4, 5, 6, 7]

/-- Block size of a size code: 512 × 2^c bytes (00_scope.md section 2). -/
def blockSize (c : Nat) : Nat :=
  512 * 2 ^ c

end Sys2Proof.Machine
end

