-- ==== Sys2Proof/Machine/Fold.lean ====
section
/-! DEFINITION. The arithmetic of the fold (02_the_fold_sum.md): the fold reduction, the power table, the first weight of a
block, and the streaming of a payload. -/

namespace Sys2Proof.Machine

/-- The fold modulus P = 2^31 - 1 (R25). -/
def foldP : Nat := 2147483647

/-- One pass of step 1 of the fold reduction (R26). -/
def foldPass (x : Nat) : Nat :=
  x % 2147483648 + x / 2147483648

/-- Step 1, repeated while the value is 2^31 or more (R26), at most `n` times. -/
def foldPasses : Nat → Nat → Nat
  | 0, x => x
  | n + 1, x => if x < 2147483648 then x else foldPasses n (foldPass x)

/-- The fold reduction of a value of up to 64 bits (R26); three passes bring such a value below 2^31. -/
def foldReduce (x : Nat) : Nat :=
  let y := foldPasses 4 x
  if y = foldP then 0 else y

/-- The power table entries from a given one on: each is the square of the one before (R27). -/
def powersFrom : Nat → Nat → List Nat
  | 0, _ => []
  | n + 1, x => x :: powersFrom n (foldReduce (x * x))

/-- The 31 entries of the power table of weight `w` (R27). -/
def powerTable (w : Nat) : List Nat :=
  powersFrom 31 w

/-- The first exponent e of block `k` at size code `c` (R29). -/
def firstExponent (k c : Nat) : Nat :=
  (k * (blockSize c / 2)) % (foldP - 1)

/-- The table walk (R30): the product of the entries for the set bits of `e`, in order of increasing bit; `r` is none until the
first entry is taken. -/
def tableWalk : List Nat → Nat → Option Nat → Option Nat
  | [], _, r => r
  | p :: ps, e, r =>
    if e % 2 = 1 then
      tableWalk ps (e / 2) (some (match r with | none => p | some x => foldReduce (x * p)))
    else tableWalk ps (e / 2) r

/-- W^e from the power table; W^0 = 1 (R30). -/
def firstPower (table : List Nat) (e : Nat) : Nat :=
  (tableWalk table e none).getD 1

/-- The sum of two fold values, less P once when it is P or more (R34). -/
def addFold (s b : Nat) : Nat :=
  if s + b ≥ foldP then s + b - foldP else s + b

/-- A complete symbol of value `sym` is folded: its product with the running power is added to the accumulator, and the power
advances by W (R31). -/
def foldSymbol (w sym : Nat) (u : FoldUnit) : FoldUnit :=
  { u with acc := u.acc + sym * u.power.getD 1, power := some (foldReduce (u.power.getD 1 * w)), odd := none }

/-- One payload byte of a segment of length `len` reaches the fold (R22, R31): a high byte waits for its low byte, except that
the last byte of an odd payload is completed at once with a low byte of 0. -/
def foldByte (w len : Nat) (u : FoldUnit) (b : Byte) : FoldUnit :=
  let u' := { u with folded := u.folded + 1 }
  match u.odd with
  | some hi => foldSymbol w (256 * hi.toNat + b.toNat) u'
  | none => if u.folded + 1 = len then foldSymbol w (256 * b.toNat) u' else { u' with odd := some b }

/-- The fold unit between segments: accumulator 0, no running power, no odd byte (R33). -/
def FoldUnit.clear (u : FoldUnit) : FoldUnit :=
  { u with acc := 0, power := none, odd := none, walk := none, waiting := [], folded := 0 }

/-- The walk is finished: the first running power is in place and the waiting bytes are folded in order (R30). -/
def finishWalk (w len : Nat) (u : FoldUnit) : FoldUnit :=
  match u.walk with
  | none => u
  | some e =>
    let ready := { u with walk := none, waiting := [], power := some (firstPower u.entries e) }
    u.waiting.foldl (foldByte w len) ready

/-- The block sum handed over once the last byte of the header's payload length is folded (R32), with the unit cleared. -/
def handOver (len : Nat) (u : FoldUnit) : FoldUnit × Option Nat :=
  if u.walk = none ∧ u.folded = len ∧ len > 0 then (u.clear, some (foldReduce u.acc)) else (u, none)

/-- The fold of a whole payload from a first running power: what R24 calls the block sum, formed symbol by symbol. -/
def blockSum (w k c : Nat) (payload : List Byte) : Nat :=
  let start := { FoldUnit.reset with power := some (firstPower (powerTable w) (firstExponent k c)) }
  foldReduce (payload.foldl (foldByte w payload.length) start).acc

end Sys2Proof.Machine
end

