-- ==== Sys2Proof/Machine/Coverage.lean ====
section
/-! DEFINITION. Coverage lists (04_coverage_and_the_extent_pool.md): placing a block, inserting it, removing it, the front, and
the tests the close and shape rules make against a list. -/

namespace Sys2Proof.Machine

namespace Coverage

/-- Some extent holds block `k` (R70, "covered"). -/
def holds (l : List Extent) (k : Nat) : Bool :=
  l.any fun e => e.first ≤ k && k < e.first + e.count

/-- The list holds a block numbered `n` or above. -/
def holdsFrom (l : List Extent) (n : Nat) : Bool :=
  l.any fun e => n < e.first + e.count

/-- The five cases in which a block stands against a list (R70). -/
inductive Place where
  | covered | extendsEnd | extendsStart | bridge | fresh
  deriving DecidableEq, Repr

/-- Block `k` against list `l` (R70): X is an extent whose end is `k`, Y one whose first block is `k + 1`. -/
def place (l : List Extent) (k : Nat) : Place :=
  if holds l k then .covered
  else
    match l.any (fun e => e.first + e.count = k), l.any (fun e => e.first = k + 1) with
    | true, true => .bridge
    | true, false => .extendsEnd
    | false, true => .extendsStart
    | false, false => .fresh

/-- The list with block `k` entered (R70). -/
def insert (k : Nat) : List Extent → List Extent
  | [] => [⟨k, 1⟩]
  | e :: es =>
    if k + 1 < e.first then ⟨k, 1⟩ :: e :: es
    else if k + 1 = e.first then ⟨k, e.count + 1⟩ :: es
    else if k < e.first + e.count then e :: es
    else if k = e.first + e.count then
      match es with
      | [] => [⟨e.first, e.count + 1⟩]
      | y :: ys => if y.first = k + 1 then ⟨e.first, e.count + 1 + y.count⟩ :: ys else ⟨e.first, e.count + 1⟩ :: y :: ys
    else e :: insert k es

/-- The list with block `k` removed: a deletion, a shortening, or a split in two (R79). -/
def remove (k : Nat) : List Extent → List Extent
  | [] => []
  | e :: es =>
    if k < e.first then e :: es
    else if e.first + e.count ≤ k then e :: remove k es
    else
      (if e.first = k then [] else [⟨e.first, k - e.first⟩])
        ++ (if k + 1 = e.first + e.count then [] else [⟨k + 1, e.first + e.count - (k + 1)⟩]) ++ es

/-- The number of blocks the list names (R67). -/
def blocks : List Extent → Nat
  | [] => 0
  | e :: es => e.count + blocks es

/-- The front: the count of the first extent when it starts at block 0, and 0 otherwise (R60). -/
def front : List Extent → Nat
  | [] => 0
  | e :: _ => if e.first = 0 then e.count else 0

/-- The list is the whole of an object of `n` blocks (R54). -/
def whole (l : List Extent) (n : Nat) : Bool :=
  if n = 0 then l.isEmpty else l == [⟨0, n⟩]

/-- The conditions of R66 after an extent that ends at `bound - 1` or earlier: rising, apart, and none empty. -/
def orderedFrom : Nat → List Extent → Bool
  | _, [] => true
  | bound, e :: es => bound ≤ e.first && 0 < e.count && orderedFrom (e.first + e.count + 1) es

/-- A coverage list in the form R66 asks: ascending, no two extents overlapping or touching, none empty. -/
def ordered (l : List Extent) : Bool :=
  orderedFrom 0 l

end Coverage

/-- The close record of L and E for size code `c` (R45). -/
def closeRecord (length fold c : Nat) : CloseRec :=
  let b := blockSize c
  let n := (length + b - 1) / b
  { length := length, fold := fold, blocks := n, final := if n = 0 then none else some (length - (n - 1) * b) }

/-- The shape of a block with no close recorded (R50). -/
def shapeOpen (cover : List Extent) (mark : Option (Nat × Nat)) (b k n : Nat) : Bool :=
  match mark with
  | some (s, m) => if n < b then k = s && n = m else k < s
  | none => n = b || !Coverage.holdsFrom cover (k + 1)

/-- The shape of a block with a close recorded and k < N (R51). -/
def shapeClosed (r : CloseRec) (b k n : Nat) : Bool :=
  if k + 1 < r.blocks then n = b else r.final = some n

/-- The close and shape checks for a block of number `k`, length `n` and size code `c'` at an anchor (R49 to R52), in their
order: size code, then R49, then the length above B of R51, then R50 or R51. The answer is the outcome a failing check gives. -/
def shapeFault (c : Nat) (cover : List Extent) (a : Anchor) (c' k n : Nat) : Option ObjOutcome :=
  if c' ≠ c then some .shape
  else
    match a.close with
    | some r =>
      if k ≥ r.blocks then some .overrun
      else if n > blockSize c then some .shape
      else if shapeClosed r (blockSize c) k n then none else some .shape
    | none =>
      if n > blockSize c then some .shape
      else if shapeOpen cover a.shortMark (blockSize c) k n then none else some .shape

/-- The checks of a first close (R46), in their order. -/
def closeFault (c : Nat) (cover : List Extent) (a : Anchor) (c' : Nat) (r : CloseRec) : Option ObjOutcome :=
  if c' ≠ c then some .shape
  else if Coverage.holdsFrom cover r.blocks then some .overrun
  else
    match a.shortMark with
    | some (s, m) => if s + 1 ≠ r.blocks || some m ≠ r.final then some .shape else none
    | none =>
      match r.final with
      | some f => if f < blockSize c && Coverage.holds cover (r.blocks - 1) then some .shape else none
      | none => none

end Sys2Proof.Machine
end

