-- ==== Sys2Proof/Machine/Wire.lean ====
section
/-! DEFINITION. The peer link's frames on the medium (05_the_peer_link.md sections 5.1 and 5.2, 11_formats.md section 11.2): kinds,
classes, lengths, the CRC, bit stuffing, arbitration, and the form checks of a heard frame. A bit is true when recessive. -/

namespace Sys2Proof.Machine

/-- The frame kinds (R86). -/
inductive FrameKind where
  | reassert | verdict | command | claim | release | tally | beacon | answer
  deriving DecidableEq, Repr

/-- The kind codes (R201). -/
def FrameKind.code : FrameKind → Byte
  | .reassert => 0x01
  | .verdict => 0x02
  | .command => 0x03
  | .claim => 0x11
  | .release => 0x12
  | .tally => 0x21
  | .beacon => 0x31
  | .answer => 0x32

/-- The class of a kind (R86, R201). -/
def FrameKind.cls : FrameKind → Fin 4
  | .reassert | .verdict | .command => 0
  | .claim | .release => 1
  | .tally => 2
  | .beacon | .answer => 3

/-- The kind of a code, none when the code is not in R201's table (R89). -/
def kindOfCode (b : Byte) : Option FrameKind :=
  [FrameKind.reassert, .verdict, .command, .claim, .release, .tally, .beacon, .answer].find? fun k => k.code = b

/-- The body lengths of each kind (R201), with the tests of R201 a against the body itself. A COMMAND's length against its own
kind is judged by the command unit (R204). -/
def lengthFits (k : FrameKind) (body : List Byte) : Bool :=
  match k with
  | .reassert | .claim => body.length = 8
  | .release => body.length = 9
  | .beacon => body.length = 2
  | .answer => body.length = 6 || body.length = 31 || body.length = 52
  | .command => 3 ≤ body.length && body.length ≤ 100
  | .tally =>
    let n := (byteAt body 11).toNat
    1 ≤ n && n ≤ 8 && body.length = 12 + 14 * n
  | .verdict =>
    let n := (byteAt body 11).toNat
    if byteAt body 10 = 0 then 1 ≤ n && n ≤ 8 && body.length = 12 + n else body.length = 12

/-- The largest length a frame of this part may have (R85, R88). -/
def maxBody : Nat := 128

/-! ## CRC (R85 b) -/

/-- One bit step of the CRC register: shift, and add the generator x^16 + x^12 + x^5 + 1 when the bit shifted out is set. -/
def crcShift (r : BitVec 16) : BitVec 16 :=
  if r.msb then (r <<< 1) ^^^ 0x1021#16 else r <<< 1

/-- `n` bit steps. -/
def crcShifts : Nat → BitVec 16 → BitVec 16
  | 0, r => r
  | n + 1, r => crcShifts n (crcShift r)

/-- A byte enters the register most significant bit first. -/
def crcByte (r : BitVec 16) (b : Byte) : BitVec 16 :=
  crcShifts 8 (r ^^^ (b.zeroExtend 16 <<< 8))

/-- The check over the kind byte, the length byte and the body (R85 b), from the preset FFFFH. -/
def frameCrc (kind : Byte) (body : List Byte) : BitVec 16 :=
  (kind :: BitVec.ofNat 8 body.length :: body).foldl crcByte 0xFFFF#16

/-! ## Form checks of a heard frame (R89) -/

/-- A framed frame is not valid at station `self` when one of the conditions of R89 holds. -/
def frameFault (self : Station) (f : HeardFrame) : Bool :=
  f.crc ≠ frameCrc f.kind f.body ||
    (match kindOfCode f.kind with
      | none => true
      | some k =>
        f.cls.toNat ≠ k.cls.val || !lengthFits k f.body || (k = .command && f.src ≠ 0) || f.src = self)

/-- The receiver can place the end delimiter: the length is 128 or less (R88). -/
def framed (f : HeardFrame) : Bool :=
  f.body.length ≤ maxBody

/-! ## What the medium carries -/

/-- `n` bits of a number, most significant bit first (R85). -/
def bitsOf : Nat → Nat → List Bool
  | 0, _ => []
  | n + 1, x => decide (x / 2 ^ n % 2 = 1) :: bitsOf n x

/-- The arbitration field: class (2 bits), then station number (3 bits) (R85). -/
def arbitrationBits (cls : Fin 4) (s : Station) : List Bool :=
  bitsOf 2 cls.val ++ bitsOf 3 s.val

/-- The field bits from the start delimiter to the CRC (R85). -/
def fieldBits (s : Station) (cls : Fin 4) (kind : Byte) (body : List Byte) : List Bool :=
  [false, false, true] ++ arbitrationBits cls s ++ bitsOf 8 kind.toNat ++ bitsOf 8 body.length
    ++ body.flatMap (fun b => bitsOf 8 b.toNat) ++ bitsOf 16 (frameCrc kind body).toNat

/-- Recessive stuffing (R84): after five consecutive recessive bits one dominant bit is sent. `n` counts the recessive bits just
sent. -/
def stuffFrom (n : Nat) : List Bool → List Bool
  | [] => []
  | true :: bs => if n = 4 then true :: false :: stuffFrom 0 bs else true :: stuffFrom (n + 1) bs
  | false :: bs => false :: stuffFrom 0 bs

/-- The stuffed bits of a field string (R84). -/
def stuff (bs : List Bool) : List Bool :=
  stuffFrom 0 bs

/-- The receiver removes each stuff bit; a recessive bit where a stuff bit is due is a long frame, none (R84, R88). -/
def unstuffFrom (n : Nat) : List Bool → Option (List Bool)
  | [] => some []
  | false :: bs => (unstuffFrom 0 bs).map (false :: ·)
  | true :: bs =>
    if n = 4 then
      match bs with
      | false :: rest => (unstuffFrom 0 rest).map (true :: ·)
      | _ => none
    else (unstuffFrom (n + 1) bs).map (true :: ·)

/-- The longest run of recessive bits, counting `n` already seen. -/
def longestRun (n : Nat) : List Bool → Nat
  | [] => n
  | true :: bs => longestRun (n + 1) bs
  | false :: bs => max n (longestRun 0 bs)

/-- All the bits a station drives for a frame: stuffed fields, then the six recessive bits of the end delimiter (R84, R85). -/
def wireBits (s : Station) (cls : Fin 4) (kind : Byte) (body : List Byte) : List Bool :=
  stuff (fieldBits s cls kind body) ++ List.replicate 6 true

/-- What a contender learns from the medium, bit by bit (R84, R92): it has lost at the first bit where it sends recessive and
the medium is dominant. `mine` and `others` are the arbitration bits; true means that `mine` continues to the end. -/
def winsArbitration : List Bool → List Bool → Bool
  | true :: _, false :: _ => false
  | false :: _, true :: _ => true
  | _ :: xs, _ :: ys => winsArbitration xs ys
  | _, _ => true

end Sys2Proof.Machine
end

