-- ==== Sys2Proof/Machine/Formats.lean ====
section
/-! DEFINITION. The layouts this part writes (11_formats.md): codes, frame bodies, answers and notice records. -/

namespace Sys2Proof.Machine

/-! ## Codes (R203, R204, R207) -/

/-- Outcome codes (R207). -/
def ObjOutcome.code : ObjOutcome → Nat
  | .verified => 1 | .mismatch => 2 | .shape => 3 | .overrun => 4
  | .closeConflict => 5 | .stalled => 6 | .aborted => 7 | .split => 8

/-- Orphaning reason codes (R207). -/
def OrphanReason.code : OrphanReason → Nat
  | .anchorAbsent => 1 | .anchorLost => 2 | .unresponsive => 3 | .faulted => 4

/-- STATION event codes (R207). -/
def StationEvent.code : StationEvent → Nat
  | .syncLost => 1 | .peerPresent => 2 | .peerAbsent => 3 | .linkFault => 4

/-- Mode codes of ANSWER byte 1 (R204). -/
def Mode.code : Mode → Nat
  | .waitingSetup => 1 | .running => 2 | .quiesced => 3 | .faulted => 4 | .restarting => 5

/-- Per-entry verdict codes (R203). -/
def EntryCode.code : EntryCode → Nat
  | .accept => 1 | .duplicate => 2 | .refused => 3 | .ended => 4

/-- The answers (R188). -/
inductive AnswerCode where
  | staged | accepted | missing | refused | already | busy | noSetup | inFault | done | notHere | notAnchor | reply
  | restarted | badCommand
  deriving DecidableEq, Repr

/-- Answer codes of ANSWER byte 4 (R207). -/
def AnswerCode.code : AnswerCode → Nat
  | .staged => 1 | .accepted => 2 | .missing => 3 | .refused => 4 | .already => 5 | .busy => 6 | .noSetup => 7
  | .inFault => 8 | .done => 9 | .notHere => 10 | .notAnchor => 11 | .reply => 12 | .restarted => 13 | .badCommand => 14

/-! ## Frame bodies -/

/-- Bytes 10 and following of a VERDICT body (R203). -/
def Verdict.bytes : Verdict → List Byte
  | .perEntry codes => 0 :: BitVec.ofNat 8 codes.length :: codes.map fun x => BitVec.ofNat 8 x.code
  | .hold => [1, 0]
  | .moved x => [2, BitVec.ofNat 8 x.val]
  | .retired => [3, 0]
  | .unknown => [4, 0]

/-- A VERDICT body (R203). -/
def VerdictBody.bytes (v : VerdictBody) : List Byte :=
  tagBytes v.tag ++ [v.seq, BitVec.ofNat 8 v.dest.val] ++ v.verdict.bytes

/-- One 14-byte entry of a TALLY body (R202). -/
def TallyEntry.bytes : TallyEntry → List Byte
  | .block k n sum index => 1 :: (beBytes 4 k ++ beBytes 2 (n - 1) ++ beBytes 4 sum ++ beBytes 3 index.toNat)
  | .close l e c => 2 :: (beBytes 6 l ++ beBytes 4 e ++ [BitVec.ofNat 8 c, 0, 0])

/-- A TALLY body (R202). -/
def TallyBody.bytes (t : TallyBody) : List Byte :=
  tagBytes t.tag ++ [t.seq, BitVec.ofNat 8 t.dest.val, BitVec.ofNat 8 t.sizeCode, BitVec.ofNat 8 t.entries.length]
    ++ t.entries.flatMap TallyEntry.bytes

/-- The kind of a frame this part queues (R86). -/
def Frame.kind : Frame → FrameKind
  | .reassert _ => .reassert
  | .verdict _ => .verdict
  | .claim _ => .claim
  | .release _ _ => .release
  | .tally _ => .tally
  | .beacon _ _ => .beacon
  | .answer _ => .answer

/-- The body of a frame this part queues (R201 to R204). -/
def Frame.body : Frame → List Byte
  | .reassert t => tagBytes t
  | .verdict v => v.bytes
  | .claim t => tagBytes t
  | .release t o => tagBytes t ++ [BitVec.ofNat 8 o.code]
  | .tally t => t.bytes
  | .beacon s n => [BitVec.ofNat 8 s.val, n]
  | .answer b => b

/-- The bits station `s` drives for a frame it sends whole (R84, R85). -/
def Frame.wireBits (f : Frame) (s : Station) : List Bool :=
  Sys2Proof.Machine.wireBits s f.kind.cls f.kind.code f.body

/-- The frame as its hearers take it (R85). -/
def Frame.heard (f : Frame) (s : Station) : HeardFrame :=
  { cls := BitVec.ofNat 2 f.kind.cls.val, src := s, kind := f.kind.code, body := f.body,
    crc := frameCrc f.kind.code f.body }

/-! ## Answers (R204) -/

/-- What a command's rule answers: code, naming byte, and data for REPLY. -/
structure Reply where
  code : AnswerCode
  naming : Byte
  data : List Byte
  deriving DecidableEq, Repr

/-- An answer with neither naming byte nor data. -/
def plainReply (a : AnswerCode) : Reply :=
  { code := a, naming := 0, data := [] }

/-- An ANSWER body (R204). -/
def answerBody (self : Station) (mode : Mode) (number kind : Byte) (r : Reply) : List Byte :=
  [BitVec.ofNat 8 self.val, BitVec.ofNat 8 mode.code, number, kind, BitVec.ofNat 8 r.code.code, r.naming] ++ r.data

/-- A yes or no byte. -/
def flagByte (b : Bool) : Byte :=
  if b then 1 else 0

/-- The data of a QUERY's REPLY (R194, R204). -/
def queryData (self : Station) (ctx : Context) : List Byte :=
  let counts := beBytes 2 ctx.localDup ++ beBytes 2 ctx.peerDup ++ beBytes 2 ctx.refused
  match ctx.role with
  | .anchor a =>
    let st : Byte := match a.state with | .claiming => 1 | .opened => 2 | .closing => 3
    [1, st, BitVec.ofNat 8 ctx.sizeCode, BitVec.ofNat 8 self.val] ++ beBytes 5 (Coverage.front ctx.cover)
      ++ beBytes 5 a.accepted ++ [flagByte a.close.isSome, BitVec.ofNat 8 ctx.cover.length]
      ++ beBytes 2 a.provisional.length ++ [0] ++ counts
  | .feeder f =>
    let st : Byte := match f.state with | .feeding => 4 | .releaseWait => 5
    [2, st, BitVec.ofNat 8 ctx.sizeCode, BitVec.ofNat 8 f.anchor.val] ++ beBytes 5 0 ++ beBytes 5 0
      ++ [0, BitVec.ofNat 8 ctx.cover.length] ++ beBytes 2 f.entries.length ++ [flagByte f.tally.isSome] ++ counts

/-- The data of a COUNTERS REPLY: the sixteen counters, then the missed-beacon counts of the other stations, ascending (R197,
R204). -/
def countersData (self : Station) (counters : Vector Nat 16) (presence : Vector Presence 8) : List Byte :=
  counters.toList.flatMap (fun n => beBytes 2 n)
    ++ (stations.filter (· ≠ self)).flatMap fun x => beBytes 2 presence[x].missed

/-! ## Notice records (R206) -/

/-- The host session number of a session tag under a filter (R6, R7): none when the filter does not admit it. -/
def hostSession (mode : FilterMode) (tags : List (BitVec 32)) (session : BitVec 32) : Option Nat :=
  match mode with
  | .named => tags.idxOf? session
  | .opened => if session ∈ tags then none else some 255

/-- The session form bit (R206). -/
def formBit (mode : FilterMode) : Nat :=
  match mode with
  | .named => 0
  | .opened => 1

/-- Bytes 4..11 of a notice about an object: its identity in the form of the writing station's filter (R206). -/
def identity (mode : FilterMode) (tags : List (BitVec 32)) (t : Tag) : List Byte :=
  (match mode with
    | .named => [0, 0, 0, BitVec.ofNat 8 ((hostSession mode tags t.session).getD 255)]
    | .opened => beBytes 4 t.session.toNat)
    ++ beBytes 4 t.object.toNat

/-- Byte 0: the kind in bits 7..5, the session form in bit 4, the flags in bits 3..0 (R206). -/
def recordHead (kind form flags : Nat) : Byte :=
  BitVec.ofNat 8 (kind * 32 + form * 16 + flags)

/-- The 4-byte handle group of a RETURN record (R206). -/
def returnGroup (h : Option Handle) : List Byte :=
  match h with
  | some h => beBytes 3 h.index.toNat ++ [0]
  | none => zeros 4

/-- A 32-byte OBJECT-END record (R206). -/
def EndReport.bytes (mode : FilterMode) (tags : List (BitVec 32)) (r : EndReport) : List Byte :=
  let whole := r.accepted = 2 ^ 32
  let flags := (if r.close.isSome then 8 else 0) + (if r.feederLost then 4 else 0) + (if whole then 2 else 0)
  let judged := r.outcome = .verified || r.outcome = .mismatch
  [recordHead 3 (formBit mode) flags, BitVec.ofNat 8 (r.outcome.code * 16 + r.sizeCode), r.feeders,
      BitVec.ofNat 8 (min r.localDup 255)]
    ++ identity mode tags r.tag ++ beBytes 4 r.sum ++ beBytes 6 ((r.close.map Prod.fst).getD 0) ++ beBytes 4 r.accepted
    ++ beBytes 4 (if judged then (r.close.map Prod.snd).getD 0 else r.front)
    ++ [BitVec.ofNat 8 (min r.peerDup 255), BitVec.ofNat 8 (min r.refused 255)]

/-- The 32-byte record of a notice, formed with the writing station's filter at the time of writing (R6, R206). -/
def Notice.bytes (mode : FilterMode) (tags : List (BitVec 32)) : Notice → List Byte
  | .block t x b =>
    [recordHead 1 (formBit mode) 0, BitVec.ofNat 8 x.val] ++ beBytes 2 (b.length - 1) ++ identity mode tags t
      ++ beBytes 4 b.block ++ beBytes 4 b.sum ++ beBytes 3 b.handle.index.toNat ++ [0] ++ beBytes 8 b.handle.addr.toNat
  | .front t n =>
    [recordHead 2 (formBit mode) (if n = 2 ^ 32 then 1 else 0), 0, 0, 0] ++ identity mode tags t ++ beBytes 4 n ++ zeros 16
  | .objectEnd r => r.bytes mode tags
  | .orphaned t reason noticed recycled =>
    [recordHead 4 (formBit mode) 0, BitVec.ofNat 8 reason.code] ++ beBytes 2 recycled ++ identity mode tags t
      ++ beBytes 4 noticed ++ zeros 16
  | .returned cls hs =>
    [recordHead 5 0 (match cls with | .small => 0 | .large => 1), BitVec.ofNat 8 hs.length, 0, 0]
      ++ returnGroup hs[0]? ++ returnGroup hs[1]? ++ returnGroup hs[2]? ++ returnGroup hs[3]? ++ zeros 12
  | .station l =>
    [recordHead 6 0 0, BitVec.ofNat 8 l.event.code, BitVec.ofNat 8 l.concerned.val, l.set] ++ beBytes 2 l.count ++ zeros 26

/-- The handles a notice carries (R164, R165). -/
def Notice.handles : Notice → List Handle
  | .block _ _ b => [b.handle]
  | .returned _ hs => hs
  | _ => []

/-- FRONT, STATION and RETURN notices hold no reservation (R170, R174). -/
def Notice.isUnreserved : Notice → Bool
  | .front _ _ | .returned _ _ | .station _ => true
  | _ => false

end Sys2Proof.Machine
end

