-- ==== Sys2Proof/Machine/Operands.lean ====
section
/-! DEFINITION. Every operand form the commands carry as bytes, read into fields: segment headers, TALLY and VERDICT bodies,
COMMAND bodies, setup parts and free ring entries (11_formats.md). -/

namespace Sys2Proof.Machine

/-! ## Segment header (R3, R4, R200) -/

/-- Ones'-complement addition of two 16-bit words: a carry out of bit 15 is added back into the low end (R4). -/
def onesAdd (a b : Nat) : Nat :=
  let s := a + b
  if s < 65536 then s else s - 65535

/-- The ones'-complement sum of the sixteen 16-bit words, each high byte first (R4). -/
def headerSum (h : List Byte) : Nat :=
  (List.range 16).foldl (fun s i => onesAdd s (field h (2 * i) 2)) 0

/-- The 32 header bytes as fields, none when the header fails with reason HEADER (R4): check sum, kind, version, size code,
payload length, object length and expected fold, in that order. -/
def parseHeader (h : List Byte) : Option SegHeader :=
  let kind := (byteAt h 0).toNat
  let c := (byteAt h 2).toNat
  let len := field h 16 4
  let objLen := field h 20 6
  let e := field h 26 4
  let mk (k : SegKind) : SegHeader :=
    { kind := k, sizeCode := c, tag := tagAt h 4, block := field h 12 4, length := len, objLength := objLen, fold := e }
  if headerSum h ≠ 65535 then none
  else if kind ≠ 1 ∧ kind ≠ 2 then none
  else if (byteAt h 1).toNat ≠ 1 then none
  else if c > 7 then none
  else if kind = 1 then
    if len = 0 ∨ len > blockSize c then none else some (mk .data)
  else
    if len ≠ 0 then none
    else if objLen > blockSize c * 2 ^ 32 ∨ e ≥ foldP then none
    else some (mk .close)

/-! ## Heard TALLY and VERDICT bodies (R202, R203) -/

/-- The 14 bytes of entry `i`, counted from 0 (R202). -/
def tallyEntryAt (body : List Byte) (i : Nat) : Option TallyEntry :=
  let o := 12 + 14 * i
  if byteAt body o = 1 then
    some (.block (field body (o + 1) 4) (field body (o + 5) 2 + 1) (field body (o + 7) 4)
      (BitVec.ofNat 24 (field body (o + 11) 3)))
  else if byteAt body o = 2 then
    let c := (byteAt body (o + 11)).toNat
    let l := field body (o + 1) 6
    if c > 7 ∨ l > blockSize c * 2 ^ 32 then none else some (.close l (field body (o + 7) 4) c)
  else none

/-- The entries of a TALLY body, none when one of them fails a check of R202. -/
def tallyEntriesAt (body : List Byte) : Nat → Nat → Option (List TallyEntry)
  | 0, _ => some []
  | n + 1, i =>
    match tallyEntryAt body i, tallyEntriesAt body n (i + 1) with
    | some e, some es => some (e :: es)
    | _, _ => none

/-- The station a byte names when it is 0..7. -/
def stationOf (b : Byte) : Option Station :=
  if h : b.toNat < 8 then some ⟨b.toNat, h⟩ else none

/-- A TALLY body with its checks (R202): none means discarded unprocessed with LINK-BAD-FRAME. The addressed station is checked
before this is used. -/
def parseTally (self : Station) (body : List Byte) : Option TallyBody :=
  if (byteAt body 10).toNat > 7 then none
  else
    (tallyEntriesAt body (byteAt body 11).toNat 0).map fun es =>
      { tag := tagAt body 0, seq := byteAt body 8, dest := self, sizeCode := (byteAt body 10).toNat, entries := es }

/-- A per-entry code byte (R203). -/
def entryCodeOf (b : Byte) : Option EntryCode :=
  [EntryCode.accept, .duplicate, .refused, .ended].find? fun x => BitVec.ofNat 8 x.code = b

/-- A list of code bytes, none when one is outside 01H..04H (R203). -/
def entryCodesOf : List Byte → Option (List EntryCode)
  | [] => some []
  | b :: bs =>
    match entryCodeOf b, entryCodesOf bs with
    | some x, some xs => some (x :: xs)
    | _, _ => none

/-- The verdict of a heard VERDICT body, none when byte 10 or a code is outside its range (R203). A MOVED that names station 0
or a value above 7 "is treated as UNKNOWN" (R203). -/
def parseVerdict (body : List Byte) : Option Verdict :=
  let k := (byteAt body 10).toNat
  if k = 0 then (entryCodesOf (body.drop 12)).map .perEntry
  else if k = 1 then some .hold
  else if k = 2 then
    match stationOf (byteAt body 11) with
    | some x => if x = 0 then some .unknown else some (.moved x)
    | none => some .unknown
  else if k = 3 then some .retired
  else if k = 4 then some .unknown
  else none

/-! ## COMMAND bodies (R204) -/

/-- The nine rows a COMMAND can be (R187, R204). -/
inductive CommandRow where
  | setupPart | go | query | abort | quiesce | resume | counters | restart | bad
  deriving DecidableEq, Repr

/-- The row of a COMMAND body: its kind code, with the body length of the kind's row; an unknown kind or another length is the
row BAD_COMMAND (R187, R204). -/
def commandRow (body : List Byte) : CommandRow :=
  let n := body.length
  match (byteAt body 2).toNat with
  | 1 => if 4 ≤ n && n ≤ 100 then .setupPart else .bad
  | 2 => if n = 3 then .go else .bad
  | 3 => if n = 11 then .query else .bad
  | 4 => if n = 11 then .abort else .bad
  | 5 => if n = 3 then .quiesce else .bad
  | 6 => if n = 3 then .resume else .bad
  | 7 => if n = 4 then .counters else .bad
  | 8 => if n = 3 then .restart else .bad
  | _ => .bad

/-- The target mask names station `self` (R187, R204). -/
def maskNames (self : Station) (body : List Byte) : Bool :=
  hasStation (byteAt body 0) self

/-! ## Setup parts (R189, R205) -/

/-- A 28-byte ring group (R205). -/
def ringAt (p : List Byte) (o : Nat) : RingSetup :=
  { base := BitVec.ofNat 64 (field p o 8), size := field p (o + 8) 4,
    producer := BitVec.ofNat 64 (field p (o + 12) 8), consumer := BitVec.ofNat 64 (field p (o + 20) 8) }

/-- A ring size is a power of two in 64..65536 (R189). -/
def ringSizeOk (m : Nat) : Bool :=
  m ∈ [64, 128, 256, 512, 1024, 2048, 4096, 8192, 16384, 32768, 65536]

/-- A SMALL buffer size is a power of two in 512..16384 (R189). -/
def smallSizeOk (m : Nat) : Bool :=
  m ∈ [512, 1024, 2048, 4096, 8192, 16384]

/-- A clamped field: 0 gives the default, otherwise the value is brought into lo..hi (R189). -/
def clamp (x dflt lo hi : Nat) : Nat :=
  if x = 0 then dflt else if x < lo then lo else if x > hi then hi else x

/-- The batch delay field: 0 gives 20 µs, otherwise the field less 1, at most 255 µs (R189). -/
def clampBatch (x : Nat) : Nat :=
  if x = 0 then 20 else min (x - 1) 255

/-- Tags 0 .. n-1 of part 3 (R192, R205). -/
def filterTagsAt (p : List Byte) (n : Nat) : List (BitVec 32) :=
  (List.range n).map fun i => BitVec.ofNat 32 (field p (4 + 4 * i) 4)

/-- The field codes REFUSED names (R205). -/
def setupFault (p0 p1 p2 p3 : List Byte) : Option Byte :=
  let w := field p0 0 4
  if w < 2 ∨ w > 2147483645 then some 1
  else if !smallSizeOk (field p0 4 4) then some 2
  else if !ringSizeOk (field p1 8 4) then some 3
  else if !ringSizeOk (field p1 36 4) then some 4
  else if !ringSizeOk (field p2 8 4) then some 5
  else if (byteAt p3 0).toNat ≠ 1 ∧ (byteAt p3 0).toNat ≠ 2 then some 6
  else if (byteAt p3 1).toNat > 16 then some 7
  else none

/-- The setup four parts give once the checks of R191 have passed, with the clamps of R189 (R192, R205). -/
def setupOf (p0 p1 p2 p3 : List Byte) : Setup :=
  { weight := field p0 0 4, smallSize := field p0 4 4, extentCap := clamp (field p0 8 1) 32 4 255,
    frontStep := clamp (field p0 10 2) 64 1 65535, idleLimit := clamp (field p0 12 2) 200 1 255,
    ringSmall := ringAt p1 0, ringLarge := ringAt p1 28, ringNotice := ringAt p2 0,
    beaconInterval := clamp (field p2 28 2) 100 40 1000, claimSettle := clamp (field p2 30 2) 32 8 255,
    verdictTimeout := clamp (field p2 32 2) 200 20 2000, batchDelay := clampBatch (field p2 34 2),
    filterMode := if (byteAt p3 0).toNat = 1 then .named else .opened,
    filterTags := filterTagsAt p3 (byteAt p3 1).toNat }

/-! ## Free ring entries (R200) -/

/-- The handle of a 16-byte free ring entry of a class: bytes 0..7 the address, bytes 8..10 the index (R200). `copy` tells it from
every other handle taken (R154). -/
def ringHandle (cls : BufClass) (copy : Nat) (entry : List Byte) : Handle :=
  { cls := cls, addr := BitVec.ofNat 64 (field entry 0 8), index := BitVec.ofNat 24 (field entry 8 3), copy := copy }

end Sys2Proof.Machine
end

