-- ==== Sys2Proof/Machine/Flags.lean ====
section
/-! DEFINITION. What the station's outputs and conditions are in a given state: the setup in force, port ready, notice room, the
link's conditions, and the tests the rules make before they act. -/

namespace Sys2Proof.Machine

/-- What the setup fields read as while no setup is accepted; nothing uses them then, since no context exists and the port is held
(R2, R68). -/
def Setup.blank : Setup :=
  { weight := 0, smallSize := 0, extentCap := 0, frontStep := 0, idleLimit := 0, ringSmall := ⟨0, 0, 0, 0⟩,
    ringLarge := ⟨0, 0, 0, 0⟩, ringNotice := ⟨0, 0, 0, 0⟩, beaconInterval := Config.beaconDefault, claimSettle := 0,
    verdictTimeout := 0, batchDelay := 0, filterMode := .named, filterTags := [] }

namespace Chip

/-- The setup in force; its beacon interval is 100 µs until the first GO (R98, R105). -/
def params (c : Chip) : Setup :=
  c.cmd.setup.getD Setup.blank

/-- The beacon interval I (R98). -/
def interval (c : Chip) : Nat :=
  c.params.beaconInterval

/-- I / 8, rounded down to whole microseconds (R98). -/
def eighth (c : Chip) : Nat :=
  c.interval / 8

/-- The idle limit in microseconds (R61). -/
def idleTime (c : Chip) : Nat :=
  c.params.idleLimit * Config.idleUnit

/-- The intake stands in DECIDING and waits for the flag of a CLOSE (R5, R8). -/
def awaitsCloseFlag (c : Chip) : Bool :=
  c.intake.state = .deciding &&
    (match c.intake.seg with
      | some g => g.hdr.kind = .close && !g.flagTaken
      | none => false)

/-- The modes in which the port can show ready: RUNNING, QUIESCED, and FAULTED with the power table READY (R2). -/
def modeTakesUnits (c : Chip) : Bool :=
  c.cmd.mode = .running || c.cmd.mode = .quiesced || (c.cmd.mode = .faulted && c.fold.table = .ready)

/-- The ready output of the segment port (R2). -/
def portReady (c : Chip) : Bool :=
  !c.inReset &&
    ((c.modeTakesUnits &&
        (c.intake.state = .awaitHeader || c.intake.state = .landing || c.intake.state = .discarding || c.awaitsCloseFlag)) ||
      (c.cmd.mode = .restarting && c.intake.state = .discarding))

/-- Qu: the queued records that are FRONT, STATION or RETURN notices (R170). -/
def unreserved (c : Chip) : Nat :=
  (c.notice.queue.filter Notice.isUnreserved).length

/-- Room, 512 - Q - Re - Rb, is at least 1 (R170). -/
def hasRoom (c : Chip) : Bool :=
  c.notice.queue.length + c.notice.re + c.notice.rb < Config.noticeRecords

/-- A FRONT or STATION notice may be queued (R174). -/
def unreservedRoom (c : Chip) : Bool :=
  c.hasRoom && c.unreserved < Config.unreservedCeiling

/-- A block reservation can be granted (R172). -/
def blockRoom (c : Chip) : Bool :=
  c.hasRoom && c.notice.rb < Config.blockReservations

/-- The modes in which latched STATION notices are queued: RUNNING, QUIESCED, and FAULTED once a GO has been accepted (R177). -/
def modeQueuesStation (c : Chip) : Bool :=
  c.cmd.mode = .running || c.cmd.mode = .quiesced || (c.cmd.mode = .faulted && c.cmd.setup.isSome)

/-- A waiting request of the intake can be granted (R171, R172, R173). -/
def requestHolds (c : Chip) (r : RoomRequest) : Bool :=
  match r with
  | .endOrphan => c.hasRoom
  | .block => c.blockRoom

/-- The link is SYNCED. -/
def synced (c : Chip) : Bool :=
  c.link.state = .synced

/-- Station `x` is PRESENT (R100). -/
def isPresent (c : Chip) (x : Station) : Bool :=
  c.link.presence[x].present

/-- The receiver takes frames here: a frame begun in SETTLING or SYNCED, or one it was taking when the link left SYNCED (R87). -/
def hearing (c : Chip) : Bool :=
  !c.inReset && (c.link.receiver = .taking || (c.link.receiver = .listening && c.link.state ≠ .seeking))

/-- The lowest-numbered class whose queue is not empty (R91). -/
def lowestClass (c : Chip) : Option (Fin 4) :=
  [(0 : Fin 4), 1, 2, 3].find? fun q => !c.link.queues[q].isEmpty

/-- The conditions of R91 for a station to begin a frame, but for the medium. A RESTARTING station transmits (R91, R105 b), one that was
FAULTED before its RESTART included. DESIGN CHOICE (log 45): R209 says that the silent transmitter of a FAULTED station holds a REASSERT
until RESTART discards the queues; the model lets such a station begin it between the RESTART and step 4. -/
def mayBegin (c : Chip) : Bool :=
  !c.inReset && c.synced && c.cmd.mode ≠ .faulted && c.link.receiver ≠ .ignoring && c.link.wire.isNone

/-- The depth of a transmit queue (R90). -/
def queueDepth (q : Fin 4) : Nat :=
  match q with
  | 0 => 8
  | 1 => 32
  | 2 => 8
  | 3 => 4

/-- The queue of a class has a free place (R90). -/
def hasPlace (c : Chip) (q : Fin 4) : Bool :=
  c.link.queues[q].length < queueDepth q

/-- How many frames at the head of a queue are on the wire: 1 or 0 (R91). -/
def onWire (c : Chip) (q : Fin 4) : Nat :=
  match c.link.wire with
  | some w => if w.queued && w.cls = q then 1 else 0
  | none => 0

/-- The beacon reference: the lowest-numbered PRESENT station below self (R99). -/
def reference (c : Chip) : Option Station :=
  stations.find? fun x => x < c.self && c.isPresent x

/-- The class of buffer a block of size code `k` uses (R15, R154). -/
def bufferClass (c : Chip) (k : Nat) : BufClass :=
  if blockSize k ≤ c.params.smallSize then .small else .large

/-- The pool of a class. -/
def pool (c : Chip) (cls : BufClass) : BufferPool :=
  match cls with
  | .small => c.small
  | .large => c.large

/-- The ring setup of a class (R156). -/
def ring (c : Chip) (cls : BufClass) : RingSetup :=
  match cls with
  | .small => c.params.ringSmall
  | .large => c.params.ringLarge

/-- A class needs a refill: fewer than 4 cached handles and an empty stack (R159). -/
def needsRefill (c : Chip) (cls : BufClass) : Bool :=
  (c.pool cls).cache.length < Config.refillBelow && (c.pool cls).stack.isEmpty

/-- The notice ring is full as the part sees it (R179). -/
def ringFull (c : Chip) : Bool :=
  let m := c.params.ringNotice.size
  (c.notice.pn + m - c.notice.cn) % m = m - 1

/-- The tag is in the retired list (R113). -/
def isRetired (c : Chip) (t : Tag) : Bool :=
  t ∈ c.retired

/-- The claim cache's station for a tag (R109). -/
def cached (c : Chip) (t : Tag) : Option Station :=
  (c.cache.find? fun e => e.1 = t).map Prod.snd

end Chip

/-! ## The object table -/

namespace Table

/-- The slot at a table index; none is FREE (R38). -/
def get (i : Nat) : List (Nat × Slot) → Option Slot
  | [] => none
  | (j, x) :: r => if j = i then some x else get i r

/-- The table with a slot set at an index. -/
def put (i : Nat) (x : Slot) : List (Nat × Slot) → List (Nat × Slot)
  | [] => [(i, x)]
  | (j, y) :: r => if i < j then (i, x) :: (j, y) :: r else if j = i then (i, x) :: r else (j, y) :: put i x r

/-- The table with the slot at an index FREE. -/
def free (i : Nat) : List (Nat × Slot) → List (Nat × Slot)
  | [] => []
  | (j, y) :: r => if j = i then r else (j, y) :: free i r

/-- The LIVE context that holds a tag, with its index (R38, "tag lookup"). -/
def find (t : Tag) : List (Nat × Slot) → Option (Nat × Context)
  | [] => none
  | (j, .live ctx) :: r => if ctx.tag = t then some (j, ctx) else find t r
  | (_, .owing _ _) :: r => find t r

/-- The lowest index from `n` on that is not listed in a table of rising indices. -/
def lowestFrom : Nat → List (Nat × Slot) → Nat
  | n, [] => n
  | n, (j, _) :: r => if j = n then lowestFrom (n + 1) r else n

/-- The FREE slot of lowest index (R38 a). -/
def lowestFree (l : List (Nat × Slot)) : Option Nat :=
  let n := lowestFrom 0 l
  if n < Config.tableSlots then some n else none

/-- The lowest index whose slot owes a frame: claim-owed or release-owed (R124). -/
def firstOwed : List (Nat × Slot) → Option (Nat × Slot)
  | [] => none
  | (j, .owing t o) :: _ => some (j, .owing t o)
  | (j, .live ctx) :: r =>
    match ctx.role with
    | .anchor a => if a.claimOwed then some (j, .live ctx) else firstOwed r
    | .feeder _ => firstOwed r

/-- Every context with its index, ascending. -/
def contexts : List (Nat × Slot) → List (Nat × Context)
  | [] => []
  | (j, .live ctx) :: r => (j, ctx) :: contexts r
  | (_, .owing _ _) :: r => contexts r

end Table

/-- A context rises above the intake's room test: the block needs a new extent and none can be had (R71). -/
def noExtent (cover : List Extent) (k free cap : Nat) : Bool :=
  Coverage.place cover k = .fresh && (cover.length ≥ cap || free = 0)

/-- The oldest unsent entry of a feeder that has no outstanding tally (R130). -/
def Feeder.oldest (f : Feeder) : Option Entry :=
  f.entries.head?

/-- A pending entry is a CLOSE. -/
def Entry.isClose (e : Entry) : Bool :=
  match e.body with
  | .close _ _ _ => true
  | .block _ => false

/-- A feeder is due (R130): no tally outstanding, an unsent entry, and a CLOSE entry, eight entries, the batch delay waited, or
entries returned by MOVED. A RELEASE-WAIT context is due on the last ground alone. -/
def Feeder.due (f : Feeder) (now batch : Nat) : Bool :=
  f.tally.isNone &&
    (match f.oldest with
      | none => false
      | some e =>
        f.moved.isSome ||
          (f.state = .feeding &&
            (f.entries.any Entry.isClose || f.entries.length ≥ Config.tallyEntries || e.joined + batch ≤ now)))

end Sys2Proof.Machine
end

