-- ==== Sys2Proof/Machine/Ops.lean ====
section
/-! DEFINITION. The operations the commands share: host memory, timers, counters, the object table, buffers, notices, the transmit
queues, the collections heard from the link, the life of an object at its anchor and at its feeders, and FAULTED. -/

namespace Sys2Proof.Machine

/-! ## Host memory, as this part writes it -/

namespace Memory

/-- The byte this part has written at an address; none where it has written nothing (log 6). -/
def read (a : Nat) : Memory → Option Byte
  | [] => none
  | (b, x) :: r => if b = a then some x else read a r

/-- The memory with a byte written; addresses stay strictly rising. -/
def write (a : Nat) (x : Byte) : Memory → Memory
  | [] => [(a, x)]
  | (b, y) :: r => if a < b then (a, x) :: (b, y) :: r else if b = a then (a, x) :: r else (b, y) :: write a x r

/-- Every listed address is at least `n`, and they rise strictly. -/
def risingFrom : Nat → Memory → Bool
  | _, [] => true
  | n, (a, _) :: r => n ≤ a && risingFrom (a + 1) r

/-- The canonical form: addresses strictly rising. An unlisted address has no value, so no entry can equal what it reads as. -/
def wf (m : Memory) : Bool :=
  risingFrom 0 m

/-- Bytes written at consecutive addresses; the address runs on modulo 2^64 (log 22). -/
def writeBytes : Addr → List Byte → Memory → Memory
  | _, [], m => m
  | a, b :: bs, m => writeBytes (a + 1) bs (write a.toNat b m)

/-- A 32-bit word written most significant byte first (R200). -/
def writeWord (a : Addr) (n : Nat) (m : Memory) : Memory :=
  writeBytes a (beBytes 4 n) m

end Memory

/-! ## Timers -/

/-- A running timer is suspended with the time it has left (R97). -/
def Timer.suspend (now : Nat) : Timer → Timer
  | .running d => .suspended (d - now)
  | t => t

/-- A suspended timer resumes with the time it had left (R97). -/
def Timer.resume (now : Nat) : Timer → Timer
  | .suspended left => .running (now + left)
  | t => t

namespace Chip

/-- A timer started now for `d` microseconds. -/
def start (c : Chip) (d : Nat) : Timer :=
  .running (c.now + d)

/-- A timer that counts only while the link is SYNCED, started now (R42, R133 b). -/
def startSynced (c : Chip) (d : Nat) : Timer :=
  if c.synced then .running (c.now + d) else .suspended d

/-- The clock has reached a deadline (log 3). -/
def reach (c : Chip) (deadline : Nat) : Chip :=
  c.withNow (max c.now deadline)

/-! ## Station counters -/

/-- Station counter `i` advances by one and stays at 65535 (R21, R197). -/
def bump (c : Chip) (i : Fin 16) : Chip :=
  c.withCmd { c.cmd with counters := c.cmd.counters.set i (countUp c.cmd.counters[i]) }

/-! ## Contexts -/

/-- The LIVE context at a table index. -/
def context? (c : Chip) (i : Nat) : Option Context :=
  match Table.get i c.slots with
  | some (.live ctx) => some ctx
  | _ => none

/-- The anchor context at a table index. -/
def anchor? (c : Chip) (i : Nat) : Option (Context × Anchor) :=
  match c.context? i with
  | some ctx =>
    match ctx.role with
    | .anchor a => some (ctx, a)
    | .feeder _ => none
  | none => none

/-- The feeder context at a table index. -/
def feeder? (c : Chip) (i : Nat) : Option (Context × Feeder) :=
  match c.context? i with
  | some ctx =>
    match ctx.role with
    | .anchor _ => none
    | .feeder f => some (ctx, f)
  | none => none

/-- The context at an index is set. -/
def setContext (c : Chip) (i : Nat) (ctx : Context) : Chip :=
  c.withSlots (Table.put i (.live ctx) c.slots)

/-- The anchor context at an index is set. -/
def setAnchor (c : Chip) (i : Nat) (ctx : Context) (a : Anchor) : Chip :=
  c.setContext i { ctx with role := .anchor a }

/-- The feeder context at an index is set. -/
def setFeeder (c : Chip) (i : Nat) (ctx : Context) (f : Feeder) : Chip :=
  c.setContext i { ctx with role := .feeder f }

/-- The slot becomes FREE. -/
def freeSlot (c : Chip) (i : Nat) : Chip :=
  c.withSlots (Table.free i c.slots)

/-- `n` extent records return to the pool (R69). -/
def returnExtents (c : Chip) (n : Nat) : Chip :=
  c.withExtFree (c.extFree + n)

/-- `n` pending-pool entries return to the pool (R127). -/
def returnEntries (c : Chip) (n : Nat) : Chip :=
  c.withPendFree (c.pendFree + n)

/-- The pool after a list has changed from one number of extents to another (R69). -/
def moveExtents (c : Chip) (before after : Nat) : Chip :=
  c.withExtFree (c.extFree + before - after)

/-! ## Buffers -/

/-- The pool of a class is set. -/
def withPool (c : Chip) (cls : BufClass) (p : BufferPool) : Chip :=
  match cls with
  | .small => c.withSmall p
  | .large => c.withLarge p

/-- A handle is pushed on the recycle stack of its class (R162). -/
def recycle (c : Chip) (h : Handle) : Chip :=
  c.withPool h.cls { c.pool h.cls with stack := h :: (c.pool h.cls).stack }

/-- A refill starts when the class needs one, none is in progress, a ring exists, and the station is not RESTARTING (R159; log 16). -/
def testRefill (c : Chip) (cls : BufClass) : Chip :=
  if c.needsRefill cls && (c.pool cls).refill = .idle && c.cmd.setup.isSome && c.cmd.mode ≠ .restarting then
    c.withPool cls { c.pool cls with refill := .producer (c.pool cls).cache.length }
  else c

/-- Step 6 takes a handle of a class: the top of the stack, else the head of the cache (R158), with the refill tests of R159 for a
take from the cache and for a take that leaves the stack empty. -/
def takeHandle (c : Chip) (cls : BufClass) : Option (Handle × Chip) :=
  match (c.pool cls).stack with
  | h :: hs =>
    let c' := c.withPool cls { c.pool cls with stack := hs }
    some (h, if hs.isEmpty then c'.testRefill cls else c')
  | [] =>
    match (c.pool cls).cache with
    | h :: hs => some (h, (c.withPool cls { c.pool cls with cache := hs }).testRefill cls)
    | [] => none

/-! ## Notices -/

/-- A notice joins the tail of the queue (R178). -/
def queueNotice (c : Chip) (n : Notice) : Chip :=
  c.withNotice { c.notice with queue := c.notice.queue ++ [n] }

/-- A BLOCK notice is queued in a block reservation, and its handle passes to the host (R165, R172). -/
def noticeBlock (c : Chip) (t : Tag) (x : Station) (b : BlockItem) : Chip :=
  c.withNotice { c.notice with queue := c.notice.queue ++ [.block t x b], rb := c.notice.rb - 1 }

/-- A notice is queued in an end/orphan reservation (R171). -/
def noticeEnd (c : Chip) (n : Notice) : Chip :=
  c.withNotice { c.notice with queue := c.notice.queue ++ [n], re := c.notice.re - 1 }

/-- An end/orphan reservation is released without a notice (R171). -/
def releaseEnd (c : Chip) : Chip :=
  c.withNotice { c.notice with re := c.notice.re - 1 }

/-- A block reservation is released without a notice (R172). -/
def releaseBlock (c : Chip) : Chip :=
  c.withNotice { c.notice with rb := c.notice.rb - 1 }

/-- A landed block is given up: its handle is recycled and its block reservation released (R162, R172). -/
def recycleBlock (c : Chip) (b : BlockItem) : Chip :=
  (c.recycle b.handle).releaseBlock

/-- Latched STATION notices are queued oldest first for as long as R174 allows (R173, R177). -/
def drainLatches : List Latch → Chip → Chip
  | [], c => c.withNotice { c.notice with latches := [] }
  | l :: ls, c =>
    if c.modeQueuesStation && c.unreservedRoom then drainLatches ls (c.queueNotice (.station l))
    else c.withNotice { c.notice with latches := l :: ls }

/-- A waiting request of the intake is granted when its condition now holds: the intake goes to DECIDING, to resume at step 3
(R173). -/
def grantIntake (c : Chip) : Chip :=
  match c.intake.seg with
  | some g =>
    match g.request with
    | some r =>
      if c.intake.state = .held && c.requestHolds r then
        c.withIntake { c.intake with state := .deciding, seg := some { g with granted := true, request := none } }
      else c
    | none => c
  | none => c

/-- The waiters are served: first the intake's request, then the latches (R173). -/
def serve (c : Chip) : Chip :=
  drainLatches c.notice.latches c.grantIntake

/-- An event joins the pending latch of its kind, or makes the latch pending (R177). -/
def addLatch (e : StationEvent) (x : Station) : List Latch → List Latch
  | [] => [{ event := e, concerned := x, set := addStation 0 x, count := 1 }]
  | l :: ls =>
    if l.event = e then { l with concerned := x, set := addStation l.set x, count := countUp l.count } :: ls
    else l :: addLatch e x ls

/-- A station event is offered (R177). -/
def offerStation (c : Chip) (e : StationEvent) (x : Station) : Chip :=
  drainLatches (addLatch e x c.notice.latches) c

/-! ## Transmit queues -/

/-- The queue of a class is set. -/
def setQueue (c : Chip) (q : Fin 4) (l : List Frame) : Chip :=
  c.withLink { c.link with queues := c.link.queues.set q l }

/-- A frame joins the tail of a queue (R90). -/
def push (c : Chip) (q : Fin 4) (f : Frame) : Chip :=
  c.setQueue q (c.link.queues[q] ++ [f])

/-- A frame is offered to a queue; a full queue refuses it (R90). -/
def offer (c : Chip) (q : Fin 4) (f : Frame) : Chip :=
  if c.hasPlace q then c.push q f else c

/-- The frame on the wire is set. -/
def setWire (c : Chip) (w : Option Wire) : Chip :=
  c.withLink { c.link with wire := w }

/-- A free class-1 place is given to the owed frame of lowest table index (R124). -/
def giveOwed (c : Chip) : Chip :=
  if c.hasPlace 1 then
    match Table.firstOwed c.slots with
    | some (i, .owing t o) => (c.push 1 (.release t o)).freeSlot i
    | some (i, .live ctx) =>
      match ctx.role with
      | .anchor a => (c.push 1 (.claim ctx.tag)).setAnchor i ctx { a with claimOwed := false }
      | .feeder _ => c
    | none => c
  else c

/-- A place of a class has been freed: the owed frames are told of a class-1 place (R90, R124). -/
def placeFreed (c : Chip) (q : Fin 4) : Chip :=
  if q = 1 then c.giveOwed else c

/-- The frame at the head of a queue leaves it (R90, R93). -/
def popHead (c : Chip) (q : Fin 4) : Chip :=
  (c.setQueue q c.link.queues[q].tail).placeFreed q

/-- A frame with a property stands in a queue and is not on the wire. -/
def isQueued (c : Chip) (q : Fin 4) (p : Frame → Bool) : Bool :=
  (c.link.queues[q].drop (c.onWire q)).any p

/-- The first frame with a property that is queued and not on the wire is removed (R94, first case). -/
def withdrawQueued (c : Chip) (q : Fin 4) (p : Frame → Bool) : Chip :=
  if c.isQueued q p then
    let l := c.link.queues[q]
    (c.setQueue q (l.take (c.onWire q) ++ (l.drop (c.onWire q)).eraseP p)).placeFreed q
  else c

/-- A withdrawal request (R94): a queued frame is removed; with a frame on the wire the request is kept. -/
def withdraw (c : Chip) (q : Fin 4) (p : Frame → Bool) : Chip :=
  if c.isQueued q p then c.withdrawQueued q p
  else
    match c.link.wire with
    | some w => if w.queued && w.cls = q && p w.frame then c.setWire (some { w with withdraw := true }) else c
    | none => c

/-- Every REASSERT for a tag that is queued and not begun is withdrawn; one on the wire is completed (R117 step 1, R209). DESIGN CHOICE
(log 46): no withdrawal request is kept with the one on the wire (R94), so when it then loses arbitration or collides it stays at the
head of class 0 and is contended for again. -/
def withdrawReasserts (c : Chip) (t : Tag) : Chip :=
  let l := c.link.queues[(0 : Fin 4)]
  c.setQueue 0 (l.take (c.onWire 0) ++ (l.drop (c.onWire 0)).filter fun f => f ≠ .reassert t)

/-- The lowest non-empty class's head is begun (R91), where the other conditions of R91 hold. -/
def beginFrame (c : Chip) : Chip :=
  if c.mayBegin then
    match c.lowestClass with
    | some q =>
      match c.link.queues[q] with
      | f :: _ => c.setWire (some { cls := q, frame := f, queued := true, withdraw := false })
      | [] => c
    | none => c
  else c

/-! ## What has been heard (06) -/

/-- The entry for a tag leaves the claim cache (R111). -/
def forget (c : Chip) (t : Tag) : Chip :=
  c.withCache (c.cache.filter fun e => e.1 ≠ t)

/-- A heard CLAIM or REASSERT from station `x` updates the claim cache (R110). -/
def learn (c : Chip) (t : Tag) (x : Station) : Chip :=
  if c.isRetired t then c
  else if (c.cached t).isSome then c.withCache (c.cache.map fun e => if e.1 = t then (t, x) else e)
  else if c.cache.length < Config.cacheEntries then c.withCache (c.cache ++ [(t, x)])
  else c.withCache (c.cache.tail ++ [(t, x)])

/-- A tag is added to the retired list (R112), and leaves the claim cache (R111). -/
def retire (c : Chip) (t : Tag) : Chip :=
  (if c.isRetired t then c
    else if c.retired.length < Config.retiredTags then c.withRetired (c.retired ++ [t])
    else c.withRetired (c.retired.tail ++ [t])).forget t

/-! ## The life of an object at its anchor (03) -/

/-- The CLAIM for a tag. -/
def isClaim (t : Tag) (f : Frame) : Bool :=
  f = .claim t

/-- The REASSERT for a tag. -/
def isReassert (t : Tag) (f : Frame) : Bool :=
  f = .reassert t

/-- The RELEASE of step 2 of R56 is queued and the slot becomes FREE, or it is owed and the slot becomes OWING (R59). -/
def offerRelease (c : Chip) (i : Nat) (t : Tag) (o : ObjOutcome) : Chip :=
  if c.hasPlace 1 then (c.push 1 (.release t o)).freeSlot i
  else c.withSlots (Table.put i (.owing t o) c.slots)

/-- What R57 adds before step 1 of R56 for a claiming anchor: the CLAIM is withdrawn, then every provisional block is noticed. -/
def leaveClaiming (c : Chip) (t : Tag) (a : Anchor) : Chip :=
  a.provisional.foldl (fun c b => c.noticeBlock t c.self b) (c.withdraw 1 (isClaim t))

/-- An object ends at its anchor with an outcome (R56, R57). `carried` is the close of an end at R46; otherwise the recorded close is
carried. The RELEASE of an end decided inside a tally is queued in the same event; nothing that comes between can be seen (R58). -/
def endAnchor (c : Chip) (i : Nat) (o : ObjOutcome) (carried : Option (Nat × Nat)) : Chip :=
  match c.anchor? i with
  | none => c
  | some (ctx, a) =>
    let c1 := if a.state = .claiming then c.leaveClaiming ctx.tag a else c
    let report : EndReport :=
      { tag := ctx.tag, outcome := o, sizeCode := ctx.sizeCode, accepted := a.accepted, sum := a.sum,
        front := Coverage.front ctx.cover,
        close := match carried with | some x => some x | none => a.close.map fun r => (r.length, r.fold),
        localDup := ctx.localDup, peerDup := ctx.peerDup, refused := ctx.refused, feeders := a.feeders,
        feederLost := a.feederLost }
    (((c1.noticeEnd (.objectEnd report)).offerRelease i ctx.tag o).retire ctx.tag).returnExtents ctx.cover.length

/-- The FRONT test (R60, R176). -/
def frontTest (c : Chip) (i : Nat) : Chip :=
  match c.anchor? i with
  | none => c
  | some (ctx, a) =>
    let f := Coverage.front ctx.cover
    if a.lastFront + c.params.frontStep ≤ f then
      if c.unreservedRoom then (c.queueNotice (.front ctx.tag f)).setAnchor i ctx { a with lastFront := f }
      else c.bump 14
    else c

/-- The completion test of a CLOSING anchor (R54, R37), and the FRONT test when the object does not end (R42, R44, R46). -/
def completeOrFront (c : Chip) (i : Nat) : Chip :=
  match c.anchor? i with
  | none => c
  | some (ctx, a) =>
    match a.state, a.close with
    | .claiming, _ => c
    | .closing, some r =>
      if Coverage.whole ctx.cover r.blocks then c.endAnchor i (if a.sum = r.fold then .verified else .mismatch) none
      else c.frontTest i
    | _, _ => c.frontTest i

/-- A block enters an anchor's coverage list: sum, accepted count, idle timer and short mark (R44 steps 1 to 4; R43). -/
def enterBlock (c : Chip) (i k n sum : Nat) : Chip :=
  match c.anchor? i with
  | none => c
  | some (ctx, a) =>
    let cover := Coverage.insert k ctx.cover
    (c.moveExtents ctx.cover.length cover.length).setAnchor i { ctx with cover := cover, idle := c.start c.idleTime }
      { a with
        sum := addFold a.sum sum, accepted := a.accepted + 1,
        shortMark := if n < blockSize ctx.sizeCode then some (k, n) else a.shortMark }

/-- A local block is accepted at an OPEN or CLOSING anchor (R19, R44). -/
def acceptLocal (c : Chip) (i : Nat) (t : Tag) (b : BlockItem) : Chip :=
  ((c.enterBlock i b.block b.length b.sum).noticeBlock t c.self b).completeOrFront i

/-- A block becomes provisional at a CLAIMING anchor (R43). -/
def addProvisional (c : Chip) (i : Nat) (b : BlockItem) : Chip :=
  let c1 := c.enterBlock i b.block b.length b.sum
  match c1.anchor? i with
  | none => c1
  | some (ctx, a) => c1.setAnchor i ctx { a with provisional := a.provisional ++ [b] }

/-- The feeder set gains a station (R65). -/
def joinFeeder (c : Chip) (i : Nat) (x : Station) : Chip :=
  match c.anchor? i with
  | none => c
  | some (ctx, a) => c.setAnchor i ctx { a with feeders := addStation a.feeders x }

/-- The local-duplicate count of a context advances (R40). -/
def addLocalDup (c : Chip) (i : Nat) : Chip :=
  match c.context? i with
  | none => c
  | some ctx => c.setContext i { ctx with localDup := countUp ctx.localDup }

/-- The peer-duplicate count of a context advances (R40). -/
def addPeerDup (c : Chip) (i : Nat) : Chip :=
  match c.context? i with
  | none => c
  | some ctx => c.setContext i { ctx with peerDup := countUp ctx.peerDup }

/-- The refused count of a context advances (R40). -/
def addRefused (c : Chip) (i : Nat) : Chip :=
  match c.context? i with
  | none => c
  | some ctx => c.setContext i { ctx with refused := countUp ctx.refused }

/-- The idle timer of a context restarts (R61, R62). -/
def restartIdle (c : Chip) (i : Nat) : Chip :=
  match c.context? i with
  | none => c
  | some ctx => c.setContext i { ctx with idle := c.start c.idleTime }

end Chip

/-- What a close meets at an anchor (R46, R47). -/
inductive CloseResult where
  | recorded | duplicate | ended
  deriving DecidableEq, Repr

namespace Chip

/-- A close of length `l`, fold `e` and size code `k` is offered to an anchor (R46, R47, R48). The duplicate's count is the
caller's (R47). -/
def offerClose (c : Chip) (i l e k : Nat) : Chip × CloseResult :=
  match c.anchor? i with
  | none => (c, .ended)
  | some (ctx, a) =>
    match a.close with
    | some r =>
      if r.length = l ∧ r.fold = e ∧ k = ctx.sizeCode then (c.restartIdle i, .duplicate)
      else (c.endAnchor i .closeConflict none, .ended)
    | none =>
      let r := closeRecord l e k
      match closeFault ctx.sizeCode ctx.cover a k r with
      | some o => (c.endAnchor i o (some (l, e)), .ended)
      | none =>
        let c1 := c.setAnchor i { ctx with idle := c.start c.idleTime }
          { a with close := some r, state := if a.state = .opened then .closing else a.state }
        (c1.completeOrFront i, .recorded)

/-- The CLAIM of a claiming context is offered to class 1: queued, or owed (R108). -/
def offerClaim (c : Chip) (i : Nat) : Chip :=
  match c.anchor? i with
  | none => c
  | some (ctx, a) =>
    if c.hasPlace 1 then (c.push 1 (.claim ctx.tag)).setAnchor i ctx { a with claimOwed := false }
    else c.setAnchor i ctx { a with claimOwed := true }

/-- A REASSERT for a tag is offered to class 0, unless one is queued and not begun (R118). -/
def offerReassert (c : Chip) (t : Tag) : Chip :=
  if c.isQueued 0 (isReassert t) then c else c.offer 0 (.reassert t)

end Chip

/-- The anchor part of a new claiming context (R39, R64). -/
def Anchor.fresh : Anchor :=
  { state := .claiming, accepted := 0, sum := 0, close := none, shortMark := none, lastFront := 0, noticed := 0, provisional := [],
    feeders := 0, feederLost := false, claimOwed := false, claimSent := false, settle := .stopped }

/-- The feeder part of a new feeder context anchored at `x` (R39, R107, R126). -/
def Feeder.fresh (x : Station) : Feeder :=
  { state := .feeding, anchor := x, noticed := 0, entries := [], tally := none, moved := none }

/-- The landed block of a BLOCK entry. -/
def Entry.item? (e : Entry) : Option BlockItem :=
  match e.body with
  | .block b => some b
  | .close _ _ _ => none

/-- The landed blocks of a list of entries, in order. -/
def itemsOf (es : List Entry) : List BlockItem :=
  es.filterMap Entry.item?

/-- The tally of a context in class 2 (R132). -/
def isTallyOf (t : Tag) (x : Station) (seq : BitVec 8) (f : Frame) : Bool :=
  match f with
  | .tally b => b.tag = t && b.dest = x && b.seq = seq
  | _ => false

namespace Chip

/-! ## Feeders (07) -/

/-- The pair slot of a station is set (R129). -/
def setPair (c : Chip) (x : Station) (o : Option Nat) : Chip :=
  c.withPair (c.pair.set x o)

/-- Block `k` leaves a context's advisory list; a split that finds no record or no place empties the list (R79, R80). -/
def removeAdvisory (c : Chip) (i k : Nat) : Chip :=
  match c.context? i with
  | none => c
  | some ctx =>
    let cut := Coverage.remove k ctx.cover
    let cover :=
      if ctx.cover.length < cut.length ∧ (ctx.cover.length ≥ c.params.extentCap ∨ c.extFree = 0) then [] else cut
    (c.moveExtents ctx.cover.length cover.length).setContext i { ctx with cover := cover }

/-- The entry of a tally for a pending entry (R132). -/
def tallyEntry (e : Entry) : TallyEntry :=
  match e.body with
  | .block b => .block b.block b.length b.sum b.handle.index
  | .close l f k => .close l f k

/-- The TALLY frame of a context's outstanding tally (R132). -/
def tallyFrame (ctx : Context) (f : Feeder) (t : Tally) : Frame :=
  .tally { tag := ctx.tag, seq := t.seq, dest := t.dest, sizeCode := ctx.sizeCode, entries := (f.entries.take t.size).map tallyEntry }

/-- A tally is formed for a context that takes the pair slot of its anchor station (R129, R132). DESIGN CHOICE (log 43): R145 gives the
visited set of the tally after a MOVED to X as the old tally's with X added. When a REASSERT from Z has changed the anchor station before
that tally is formed (R123), the model gives it the old tally's set with Z added, and X is not in it. -/
def formTally (c : Chip) (i : Nat) : Chip :=
  match c.feeder? i with
  | none => c
  | some (ctx, f) =>
    let x := f.anchor
    let t : Tally :=
      { dest := x, seq := c.nextSeq[x], size := min f.entries.length Config.tallyEntries, sends := 1,
        visited := addStation (f.moved.getD 0) x, stage := .queued, timer := .stopped }
    let f' := { f with tally := some t, moved := none }
    (((c.withNextSeq (c.nextSeq.set x (c.nextSeq[x] + 1))).setPair x (some i)).setFeeder i ctx f').offer 2 (tallyFrame ctx f' t)

/-- The due context of station `x` whose oldest unsent entry has waited longest; between equals the lowest index (R131). -/
def longestWaiting (c : Chip) (x : Station) : List (Nat × Context) → Option (Nat × Nat)
  | [] => none
  | (i, ctx) :: r =>
    let rest := c.longestWaiting x r
    match ctx.role with
    | .anchor _ => rest
    | .feeder f =>
      match f.oldest with
      | none => rest
      | some e =>
        if f.anchor = x && f.due c.now c.params.batchDelay then
          match rest with
          | some (j, joined) => if joined < e.joined then some (j, joined) else some (i, e.joined)
          | none => some (i, e.joined)
        else rest

/-- The pair slot of one station is arbitrated among the due contexts (R131). -/
def arbitrateStation (c : Chip) (x : Station) : Chip :=
  if c.synced && c.pair[x].isNone then
    match c.longestWaiting x (Table.contexts c.slots) with
    | some (i, _) => c.formTally i
    | none => c
  else c

/-- The pair slots are arbitrated, each apart from the others (R131). -/
def arbitrate (c : Chip) : Chip :=
  stations.foldl arbitrateStation c

/-- What an event leaves to be done: freed pair slots are arbitrated (R131) and the waiters for notice room served (R173). -/
def settleEvent (c : Chip) : Chip :=
  c.arbitrate.serve

/-- A feeder context is freed without a notice: its records return, its end/orphan reservation is released, its slot becomes FREE
(R126, R171). -/
def freeFeeder (c : Chip) (i : Nat) : Chip :=
  match c.context? i with
  | none => c
  | some ctx => ((c.returnExtents ctx.cover.length).releaseEnd).freeSlot i

/-- The resend of a tally that is still queued is withdrawn (R94, R144, R149); with one on the wire the request is kept (DEDUCED,
log 50). DESIGN CHOICE (log 51): in AWAITING nothing is withdrawn, so a second copy that an expired hold wait has queued is sent. -/
def withdrawTally (c : Chip) (t : Tag) (y : Tally) : Chip :=
  if y.stage = .queued then c.withdraw 2 (isTallyOf t y.dest y.seq) else c

/-- A context is orphaned (R152): a feeder, or a FAULTED station's claiming context (R120). The freed pair slot is arbitrated at the
end of the event (log 38). A tally queued and not on the wire is withdrawn, and one on the wire is completed (R152 step 1). DESIGN CHOICE
(log 48): no withdrawal request is kept with the one on the wire (R94), so when it then loses arbitration or collides it stays at the
head of class 2 and is contended for again. -/
def orphan (c : Chip) (i : Nat) (reason : OrphanReason) : Chip :=
  match c.context? i with
  | none => c
  | some ctx =>
    match ctx.role with
    | .feeder f =>
      let items := itemsOf f.entries
      let c1 :=
        match f.tally with
        | some t => (c.withdrawQueued 2 (isTallyOf ctx.tag t.dest t.seq)).setPair t.dest none
        | none => c
      let c2 := items.foldl recycleBlock (c1.returnEntries f.entries.length)
      (((c2.noticeEnd (.orphaned ctx.tag reason f.noticed items.length)).retire ctx.tag).returnExtents ctx.cover.length).freeSlot i
    | .anchor a =>
      let c2 := a.provisional.foldl recycleBlock (c.withdraw 1 (isClaim ctx.tag))
      (((c2.noticeEnd (.orphaned ctx.tag reason a.noticed a.provisional.length)).retire ctx.tag).returnExtents
        ctx.cover.length).freeSlot i

/-- Step 2 of R117: one provisional block takes a pending entry, or is given up when the pool has none. -/
def provisionalToEntry (i : Nat) (c : Chip) (b : BlockItem) : Chip :=
  if c.pendFree = 0 then ((c.recycleBlock b).removeAdvisory i b.block).addRefused i
  else
    match c.feeder? i with
    | none => c
    | some (ctx, f) =>
      (c.withPendFree (c.pendFree - 1)).setFeeder i ctx { f with entries := f.entries ++ [{ body := .block b, joined := c.now }] }

/-- Step 3 of R117: a recorded close takes a pending entry, or is discarded. -/
def closeToEntry (i : Nat) (c : Chip) (r : CloseRec) : Chip :=
  if c.pendFree = 0 then c.addRefused i
  else
    match c.feeder? i with
    | none => c
    | some (ctx, f) =>
      (c.withPendFree (c.pendFree - 1)).setFeeder i ctx
        { f with entries := f.entries ++ [{ body := .close r.length r.fold ctx.sizeCode, joined := c.now }] }

/-- A CLAIMING context converts to a feeder of station `x` (R116, R117, R64); in FAULTED it is orphaned instead (R120). -/
def toFeeding (c : Chip) (i : Nat) (x : Station) : Chip :=
  match c.anchor? i with
  | none => c
  | some (ctx, a) =>
    if c.cmd.mode = .faulted then c.orphan i .faulted
    else
      let c1 := (c.withdrawReasserts ctx.tag).setFeeder i { ctx with idle := c.start c.idleTime } (Feeder.fresh x)
      let c2 := if a.claimSent then c1 else c1.withdraw 1 (isClaim ctx.tag)
      let c3 := a.provisional.foldl (provisionalToEntry i) c2
      match a.close with
      | some r => closeToEntry i c3 r
      | none => c3

/-- Step 3 of R147: the entries of a feeder that turns anchor are taken in order; `taken` blocks have been taken. Once the object has
ended, the entries that remain are recycled. -/
def takeEntries (i : Nat) : List Entry → Nat → Chip → Chip
  | [], _, c => c
  | e :: es, taken, c =>
    match c.anchor? i with
    | none =>
      match e.body with
      | .block b => takeEntries i es taken (c.recycleBlock b)
      | .close _ _ _ => takeEntries i es taken c
    | some (ctx, a) =>
      match e.body with
      | .block b =>
        if taken ≥ Config.provisionalBlocks then takeEntries i es taken (c.recycleBlock b)
        else
          match shapeFault ctx.sizeCode ctx.cover a ctx.sizeCode b.block b.length with
          | some o => takeEntries i es taken ((c.endAnchor i o none).recycleBlock b)
          | none =>
            if Coverage.holds ctx.cover b.block then takeEntries i es taken ((c.recycleBlock b).addLocalDup i)
            else if noExtent ctx.cover b.block c.extFree c.params.extentCap then takeEntries i es taken (c.recycleBlock b)
            else takeEntries i es (taken + 1) (c.addProvisional i b)
      | .close l f k =>
        let (c1, res) := c.offerClose i l f k
        takeEntries i es taken (if res = .duplicate then c1.addLocalDup i else c1)

/-- An UNKNOWN verdict converts a feeder into a claiming anchor (R147, R64). Its noticed count stays with the context, since an ORPHANED
notice counts the "BLOCK notices this context wrote" (R175; R126 sets it to 0 at conversion to FEEDING; log 30). -/
def toClaiming (c : Chip) (i : Nat) : Chip :=
  match c.feeder? i with
  | none => c
  | some (ctx, f) =>
    let c1 :=
      match f.tally with
      | some t => c.setPair t.dest none
      | none => c
    let c2 := ((c1.returnExtents ctx.cover.length).returnEntries f.entries.length).setAnchor i
      { ctx with cover := [], idle := c.start c.idleTime } { Anchor.fresh with noticed := f.noticed }
    let c3 := takeEntries i f.entries 0 c2
    match c3.anchor? i with
    | some _ => c3.offerClaim i
    | none => c3

/-! ## FAULTED (R103) -/

/-- The table indices of the feeder contexts. -/
def feeders (c : Chip) : List Nat :=
  (Table.contexts c.slots).filterMap fun p =>
    match p.2.role with
    | .feeder _ => some p.1
    | .anchor _ => none

/-- The station enters FAULTED (R103). -/
def enterFaulted (c : Chip) : Chip :=
  let c1 := c.withCmd { c.cmd with mode := .faulted, faultPin := true, faultAtEnd := false }
  c1.feeders.foldl (fun c i => c.orphan i .faulted) (c1.offerStation .linkFault c1.self)

end Chip

end Sys2Proof.Machine
end

