-- ==== Sys2Proof/Machine/Intake.lean ====
section
/-! DEFINITION. The segment intake and the fold unit at work (01_segments_and_intake.md; 02_the_fold_sum.md sections 2.4, 2.5), and
the meanings of the segment port's commands. -/

namespace Sys2Proof.Machine

/-- A command that acts on the station alone: nothing happens while the RESET pin is asserted (R185). -/
def onStation (f : Chip → Chip) (s : State) : Host.Outcome State Fault Refusal :=
  .next (s.withChip (if s.chip.inReset then s.chip else f s.chip))

/-- The reasons for which a segment is dropped (R21). -/
inductive DropReason where
  | header | misfit | notAdmitted | quiesced | faulted | unsynced | anchorAbsent | tableFull | late | objectEnded
  | localDuplicate | claimWait | extentShort | pendingFull | noBuffer | wire
  deriving DecidableEq, Repr

/-- The station counter a drop advances (R21). -/
def DropReason.counter : DropReason → Fin 16
  | .header | .misfit => 0
  | .notAdmitted => 1
  | .quiesced | .faulted | .unsynced | .anchorAbsent | .tableFull => 2
  | .late | .objectEnded => 3
  | .localDuplicate => 4
  | .claimWait | .extentShort | .pendingFull => 5
  | .noBuffer => 6
  | .wire => 7

namespace Chip

/-- The intake holds segment `g` in a state. -/
def holdSegment (c : Chip) (st : IntakeState) (g : Segment) : Chip :=
  c.withIntake { c.intake with state := st, headerBytes := [], seg := some g }

/-- The intake's segment has ended, and the intake is in a state. -/
def endSegment (c : Chip) (st : IntakeState) : Chip :=
  c.withIntake { c.intake with state := st, headerBytes := [], seg := none }

/-- The extent and pending-entry reservations of a segment return to their pools (R73, R127). -/
def releasePools (c : Chip) (g : Segment) : Chip :=
  let c1 := if g.extentRes then c.returnExtents 1 else c
  if g.pendingRes then c1.returnEntries 1 else c1

/-- A segment is dropped: its reservations are released, its handle recycled, its counter advances, and the intake goes to a state
(R17, R18, R21). -/
def dropSegment (c : Chip) (why : DropReason) (g : Segment) (st : IntakeState) : Chip :=
  let c1 := c.releasePools g
  let c2 := if g.blockRes then c1.releaseBlock else c1
  let c3 := match g.handle with | some h => c2.recycle h | none => c2
  (c3.bump why.counter).endSegment st

/-- A drop in DECIDING: a DATA segment goes to DISCARDING, a CLOSE, whose flag has been taken, to AWAIT-HEADER (R8, R10). -/
def dropDecided (c : Chip) (why : DropReason) (g : Segment) : Chip :=
  c.dropSegment why g (match g.hdr.kind with | .data => .discarding | .close => .awaitHeader)

/-- The intake enters HELD with the header and no reservation, waiting with a request (R11, R14). -/
def holdFor (c : Chip) (r : RoomRequest) (g : Segment) : Chip :=
  (c.releasePools g).holdSegment .held
    { g with extentRes := false, pendingRes := false, blockRes := false, request := some r, granted := false }

/-- Step 6: a landing buffer is taken and the intake enters LANDING, or the segment is dropped NO-BUFFER (R15, R158, R159). The fold
unit forms the first exponent and starts the table walk (R29, R30). -/
def stepBuffer (c : Chip) (g : Segment) : Chip :=
  let cls := c.bufferClass g.hdr.sizeCode
  match c.takeHandle cls with
  | none => (c.dropDecided .noBuffer g).testRefill cls
  | some (h, c1) =>
    (c1.withFold { c1.fold.clear with walk := some (firstExponent g.hdr.block g.hdr.sizeCode) }).holdSegment .landing
      { g with handle := some h, taken := 0, sum := none }

/-- The reservations of step 5, in their order: extent, pending entry, block (R14, R72). -/
def stepReserve (c : Chip) (cover : List Extent) (feeds : Bool) (g : Segment) : Chip :=
  if noExtent cover g.hdr.block c.extFree c.params.extentCap then c.dropDecided .extentShort g
  else
    let fresh := Coverage.place cover g.hdr.block = .fresh
    let g1 := { g with extentRes := fresh }
    let c1 := if fresh then c.withExtFree (c.extFree - 1) else c
    if feeds && c1.pendFree = 0 then c1.dropDecided .pendingFull g1
    else
      let g2 := { g1 with pendingRes := feeds }
      let c2 := if feeds then c1.withPendFree (c1.pendFree - 1) else c1
      if c2.blockRoom then
        (c2.withNotice { c2.notice with rb := c2.notice.rb + 1 }).stepBuffer { g2 with blockRes := true }
      else c2.holdFor .block g2

/-- Step 5 for a DATA segment: the checks of R13 in their order, then the reservations. -/
def stepData (c : Chip) (i : Nat) (g : Segment) : Chip :=
  match c.context? i with
  | none => c
  | some ctx =>
    if Coverage.holds ctx.cover g.hdr.block then (c.addLocalDup i).dropDecided .localDuplicate g
    else
      match ctx.role with
      | .feeder f =>
        if f.state = .releaseWait then c.dropDecided .late g
        else if g.hdr.sizeCode ≠ ctx.sizeCode then c.dropDecided .misfit g
        else c.stepReserve ctx.cover true g
      | .anchor a =>
        if a.state = .claiming ∧ a.provisional.length ≥ Config.provisionalBlocks then c.dropDecided .claimWait g
        else
          match shapeFault ctx.sizeCode ctx.cover a g.hdr.sizeCode g.hdr.block g.hdr.length with
          | some o => (c.endAnchor i o none).dropDecided .objectEnded g
          | none => c.stepReserve ctx.cover false g

/-- Step 5 for a CLOSE (R12): offered to the close rules at an anchor, a pending CLOSE entry at a FEEDING context, dropped LATE at a
RELEASE-WAIT context. -/
def stepClose (c : Chip) (i : Nat) (g : Segment) : Chip :=
  match c.context? i with
  | none => c
  | some ctx =>
    match ctx.role with
    | .anchor _ =>
      let (c1, res) := c.offerClose i g.hdr.objLength g.hdr.fold g.hdr.sizeCode
      (if res = .duplicate then c1.addLocalDup i else c1).endSegment .awaitHeader
    | .feeder f =>
      if f.state = .releaseWait then c.dropDecided .late g
      else if c.pendFree = 0 then c.dropDecided .pendingFull g
      else
        ((c.withPendFree (c.pendFree - 1)).setFeeder i { ctx with idle := c.start c.idleTime }
          { f with
            entries := f.entries ++
              [{ body := .close g.hdr.objLength g.hdr.fold g.hdr.sizeCode, joined := c.now }] }).endSegment .awaitHeader

/-- Step 5 with the context found or created (R10, R12, R13). -/
def stepContext (c : Chip) (i : Nat) (g : Segment) : Chip :=
  match g.hdr.kind with
  | .data => c.stepData i { g with slot := some i }
  | .close => c.stepClose i { g with slot := some i }

/-- A context is created in the FREE slot of lowest index once its end/orphan reservation is granted (R11, R38 a, R106); a claiming
context offers its CLAIM (R108). -/
def stepCreate (c : Chip) (role : Role) (g : Segment) : Chip :=
  match Table.lowestFree c.slots with
  | none => c.dropDecided .tableFull g
  | some i =>
    if c.hasRoom then
      let ctx : Context :=
        { tag := g.hdr.tag, sizeCode := g.hdr.sizeCode, cover := [], localDup := 0, peerDup := 0, refused := 0,
          idle := c.start c.idleTime, role := role }
      let c1 := (c.withNotice { c.notice with re := c.notice.re + 1 }).setContext i ctx
      (c1.offerClaim i).stepContext i g
    else c.holdFor .endOrphan g

/-- Step 4: the role for a new tag (R106). -/
def stepRole (c : Chip) (g : Segment) : Chip :=
  if c.isRetired g.hdr.tag then c.dropDecided .late g
  else
    match c.cached g.hdr.tag with
    | some x => if c.isPresent x then c.stepCreate (.feeder (Feeder.fresh x)) g else c.dropDecided .anchorAbsent g
    | none => if c.synced then c.stepCreate (.anchor Anchor.fresh) g else c.dropDecided .unsynced g

/-- Step 3: tag lookup and mode (R10). -/
def stepLookup (c : Chip) (g : Segment) : Chip :=
  match Table.find g.hdr.tag c.slots with
  | some (i, _) => c.stepContext i g
  | none =>
    match c.cmd.mode with
    | .quiesced => c.dropDecided .quiesced g
    | .faulted => c.dropDecided .faulted g
    | .running => c.stepRole g
    | .waitingSetup | .restarting => c

/-- The segment of a header, with nothing taken for it yet (section 1.3). -/
def segmentOf (h : SegHeader) (session : Nat) : Segment :=
  { hdr := h, session := session, slot := none, extentRes := false, pendingRes := false, blockRes := false, handle := none,
    taken := 0, sum := none, flagTaken := false, request := none, granted := false }

/-- A header byte other than the last is taken in AWAIT-HEADER (R1). -/
def takeHeaderByte (c : Chip) (b : Byte) : Chip :=
  if c.portReady && c.intake.state = .awaitHeader && c.intake.headerBytes.length < 31 then
    c.withIntake { c.intake with headerBytes := c.intake.headerBytes ++ [b] }
  else c

/-- The 32 header bytes are judged: header checks (R4), admission filter (R6, R7), then the wait for a CLOSE's flag (R5) or step 3. -/
def judgeHeader (c : Chip) (bytes : List Byte) : Chip :=
  match parseHeader bytes with
  | none => (c.bump DropReason.header.counter).endSegment .discarding
  | some h =>
    match hostSession c.params.filterMode c.params.filterTags h.tag.session with
    | none => (c.bump DropReason.notAdmitted.counter).endSegment .discarding
    | some n =>
      let g := segmentOf h n
      let c1 := c.holdSegment .deciding g
      match h.kind with
      | .close => c1
      | .data => (c1.stepLookup g).settleEvent

/-- The last header byte is taken in AWAIT-HEADER (R8, R10). -/
def takeLastHeaderByte (c : Chip) (b : Byte) : Chip :=
  if c.portReady && c.intake.state = .awaitHeader && c.intake.headerBytes.length = 31 then
    c.judgeHeader (c.intake.headerBytes ++ [b])
  else c

/-- The flag of a CLOSE is taken in DECIDING (R5). -/
def takeCloseFlag (c : Chip) (good : Bool) : Chip :=
  if c.portReady && c.awaitsCloseFlag then
    match c.intake.seg with
    | none => c
    | some g =>
      if good then
        let g1 := { g with flagTaken := true }
        ((c.holdSegment .deciding g1).stepLookup g1).settleEvent
      else c.dropSegment .wire g .awaitHeader
  else c

/-- A payload byte where a CLOSE's flag is expected: a BAD flag, and the rest of the unit is discarded (R1). -/
def takeClosePayload (c : Chip) : Chip :=
  if c.portReady && c.awaitsCloseFlag then
    match c.intake.seg with
    | none => c
    | some g => c.dropSegment .wire g .discarding
  else c

/-- The fold unit's result after a byte or a walk: the block sum is handed to the intake once the last byte is folded (R32). -/
def handSum (c : Chip) (g : Segment) (u : FoldUnit) : Chip :=
  let r := handOver g.hdr.length u
  (c.withFold r.1).holdSegment .landing { g with sum := match r.2 with | some x => some x | none => g.sum }

/-- A payload byte is taken in LANDING (R16, R31, R164): written at the buffer's address plus its number, and folded, or kept waiting
while the table walk is still being made. A byte past the header's payload length is neither written nor folded. -/
def takePayload (c : Chip) (b : Byte) : Chip :=
  if c.portReady && c.intake.state = .landing then
    match c.intake.seg with
    | none => c
    | some g =>
      let g1 := { g with taken := g.taken + 1 }
      match g.handle with
      | none => c
      | some h =>
        if g.taken < g.hdr.length then
          let c1 := c.withPayloadWrites
            (c.payloadWrites ++ [{ handle := h, addr := h.addr + BitVec.ofNat 64 g.taken, data := b }])
          match c.fold.walk with
          | some _ => (c1.withFold { c.fold with waiting := c.fold.waiting ++ [b] }).holdSegment .landing g1
          | none => c1.handSum g1 (foldByte c.params.weight g.hdr.length c.fold b)
        else c.holdSegment .landing g1
  else c

/-- The table walk ends: the first running power is in place and the waiting bytes are folded (R30). -/
def endWalk (c : Chip) : Chip :=
  match c.intake.seg with
  | none => c
  | some g =>
    if c.intake.state = .landing && c.fold.walk.isSome then
      c.handSum g (finishWalk c.params.weight g.hdr.length c.fold)
    else c

/-- Completion at an anchor (R19, R74). -/
def completeAnchor (c : Chip) (i : Nat) (ctx : Context) (a : Anchor) (g : Segment) (b : BlockItem) : Chip :=
  match shapeFault ctx.sizeCode ctx.cover a g.hdr.sizeCode b.block b.length with
  | some o => (c.endAnchor i o none).dropSegment .objectEnded g .awaitHeader
  | none =>
    if a.state = .claiming ∧ a.provisional.length ≥ Config.provisionalBlocks then c.dropSegment .claimWait g .awaitHeader
    else
      let c1 := c.releasePools g
      if noExtent ctx.cover b.block c1.extFree c1.params.extentCap then
        c1.dropSegment .extentShort { g with extentRes := false, pendingRes := false } .awaitHeader
      else
        (if a.state = .claiming then c1.addProvisional i b else c1.acceptLocal i ctx.tag b).endSegment .awaitHeader

/-- Completion at a FEEDING context (R20, R75). -/
def completeFeeder (c : Chip) (i : Nat) (ctx : Context) (f : Feeder) (g : Segment) (b : BlockItem) : Chip :=
  let c1 := c.releasePools g
  if c1.pendFree = 0 then
    c1.dropSegment .pendingFull { g with extentRes := false, pendingRes := false } .awaitHeader
  else
    let cover := if noExtent ctx.cover b.block c1.extFree c1.params.extentCap then [] else Coverage.insert b.block ctx.cover
    (((c1.withPendFree (c1.pendFree - 1)).moveExtents ctx.cover.length cover.length).setFeeder i
      { ctx with cover := cover, idle := c.start c.idleTime }
      { f with entries := f.entries ++ [{ body := .block b, joined := c.now }] }).endSegment .awaitHeader

/-- Completion against the context as it stands (R18). -/
def complete (c : Chip) (g : Segment) (b : BlockItem) : Chip :=
  match Table.find g.hdr.tag c.slots with
  | none => c.dropSegment .late g .awaitHeader
  | some (i, ctx) =>
    match ctx.role with
    | .feeder f =>
      if f.state = .releaseWait then c.dropSegment .late g .awaitHeader
      else if Coverage.holds ctx.cover b.block then (c.addLocalDup i).dropSegment .localDuplicate g .awaitHeader
      else c.completeFeeder i ctx f g b
    | .anchor a =>
      if Coverage.holds ctx.cover b.block then (c.addLocalDup i).dropSegment .localDuplicate g .awaitHeader
      else c.completeAnchor i ctx a g b

/-- The flag of a LANDING segment (R17, R18). The block sum is formed before the flag is taken (R32), so a table walk still being made
is finished first (log 20). -/
def takeLandingFlag (c : Chip) (good : Bool) : Chip :=
  if c.portReady && c.intake.state = .landing then
    let c0 := c.endWalk
    match c0.intake.seg with
    | none => c
    | some g =>
      match g.handle with
      | none => c
      | some h =>
        let c1 := c0.withFold c0.fold.clear
        if good && g.taken = g.hdr.length then
          (c1.complete g { block := g.hdr.block, length := g.hdr.length, sum := g.sum.getD 0, handle := h }).settleEvent
        else (c1.dropSegment .wire g .awaitHeader).settleEvent
  else c

/-- The flag of a unit being discarded (R8). -/
def takeDiscardFlag (c : Chip) : Chip :=
  if c.portReady && c.intake.state = .discarding then c.endSegment .awaitHeader else c

/-- A granted intake resumes at step 3 with the same header (R11, R14, R173). -/
def resumeIntake (c : Chip) : Chip :=
  match c.intake.seg with
  | none => c
  | some g =>
    let held := c.intake.state = .held && (match g.request with | some r => c.requestHolds r | none => false)
    if (c.intake.state = .deciding && g.granted) || held then
      let g1 := { g with request := none, granted := false }
      ((c.holdSegment .deciding g1).stepLookup g1).settleEvent
    else c

end Chip

/-! ## The segment port's commands -/

/-- HEADER_BYTE (R1). -/
def execHeaderByte (b : Byte) (s : State) : Host.Outcome State Fault Refusal :=
  onStation (fun c => c.takeHeaderByte b) s

/-- SEGMENT_HEADER (R10). -/
def execSegmentHeader (b : Byte) (s : State) : Host.Outcome State Fault Refusal :=
  onStation (fun c => c.takeLastHeaderByte b) s

/-- CLOSE_FLAG (R5). -/
def execCloseFlag (good : Bool) (s : State) : Host.Outcome State Fault Refusal :=
  onStation (fun c => c.takeCloseFlag good) s

/-- CLOSE_PAYLOAD_BYTE (R1): the byte's value is not used. -/
def execClosePayloadByte (_ : Byte) (s : State) : Host.Outcome State Fault Refusal :=
  onStation Chip.takeClosePayload s

/-- PAYLOAD_BYTE (R16). -/
def execPayloadByte (b : Byte) (s : State) : Host.Outcome State Fault Refusal :=
  onStation (fun c => c.takePayload b) s

/-- LANDING_FLAG (R18). -/
def execLandingFlag (good : Bool) (s : State) : Host.Outcome State Fault Refusal :=
  onStation (fun c => c.takeLandingFlag good) s

/-- DISCARD_BYTE (R1): the byte is taken and discarded; nothing of the station changes. -/
def execDiscardByte (_ : Byte) (s : State) : Host.Outcome State Fault Refusal :=
  onStation id s

/-- DISCARD_FLAG (R8): the flag's value is ignored. -/
def execDiscardFlag (_ : Bool) (s : State) : Host.Outcome State Fault Refusal :=
  onStation Chip.takeDiscardFlag s

/-- INTAKE_ROOM_GRANTED (R173). -/
def execIntakeRoomGranted (s : State) : Host.Outcome State Fault Refusal :=
  onStation Chip.resumeIntake s

/-- TABLE_WALK_DONE (R30). -/
def execTableWalkDone (s : State) : Host.Outcome State Fault Refusal :=
  onStation Chip.endWalk s

end Sys2Proof.Machine
end

