-- ==== Sys2Proof/Machine/Link.lean ====
section
/-! DEFINITION. The medium's events and the link's timers (05_the_peer_link.md): valid idle, arbitration, sent frames, collisions,
receive faults, link states, the beacon schedule, presence. -/

namespace Sys2Proof.Machine

namespace Chip

/-! ## The medium -/

/-- The medium is no longer at valid idle: the link settle timer pauses (R95). -/
def mediumBusy (c : Chip) : Chip :=
  c.withLink { c.link with
    mediumIdle := false,
    settle := if c.link.state = .settling then c.link.settle.suspend c.now else c.link.settle }

/-- SEEKING is left for SETTLING at valid idle, with the settle timer at 0 (R95); a station strapped to 0 stays in SEEKING (R104). -/
def leaveSeeking (c : Chip) : Chip :=
  if c.link.state = .seeking && c.link.mediumIdle && c.self ≠ 0 then
    c.withLink { c.link with state := .settling, settle := c.start Config.linkSettle }
  else c

/-- The medium is at valid idle (R84): the receiver is ready for the next frame, the settle timer resumes, SEEKING is left, and a frame
may be begun (R91). -/
def validIdle (c : Chip) : Chip :=
  let c1 := c.withLink { c.link with
    mediumIdle := true, receiver := .listening,
    settle := if c.link.state = .settling then c.link.settle.resume c.now else c.link.settle }
  c1.leaveSeeking.beginFrame

/-- The first dominant bit after valid idle (R87, R91): this station begins its frame in the same bit time, or its receiver begins
taking the frame that has started. -/
def leaveValidIdle (c : Chip) (begins : Bool) : Chip :=
  let c1 := if begins && c.link.mediumIdle then c.beginFrame else c
  let c2 := c1.mediumBusy
  if c2.link.wire.isNone && c2.link.receiver = .listening && c2.link.state ≠ .seeking then
    c2.withLink { c2.link with receiver := .taking }
  else c2

/-- The frame on the wire leaves it without being sent: a withdrawal kept with it is completed (R94), and a frame whose queue RESTART
has emptied is gone (R105). Otherwise it stays at the head of its queue. -/
def unsend (c : Chip) (w : Wire) : Chip :=
  let c1 := c.setWire none
  if w.queued && w.withdraw then c1.popHead w.cls else c1

/-- Arbitration is lost: the station stops driving and receives the rest of the winner's frame (R92). -/
def loseArbitration (c : Chip) : Chip :=
  match c.link.wire with
  | none => c
  | some w =>
    let c1 := c.unsend w
    c1.withLink { c1.link with receiver := .taking, mediumIdle := false }

/-- The sent event of a CLAIM: its context's settle timer starts (R42, R93, R115). A CLAIM whose context has been discarded, or that
its context has asked to withdraw, starts none. -/
def claimSent (c : Chip) (t : Tag) : Chip :=
  match Table.find t c.slots with
  | some (i, ctx) =>
    match ctx.role with
    | .anchor a =>
      if a.state = .claiming ∧ ¬a.claimSent ∧ ¬a.claimOwed then
        c.setAnchor i ctx { a with claimSent := true, settle := c.startSynced c.params.claimSettle }
      else c
    | .feeder _ => c
  | none => c

/-- The sent event of a TALLY: a tally in QUEUED goes to AWAITING and its verdict timer starts (R93, R133); in HOLDING nothing changes
(R144); a tally whose context has gone starts no timer (R152). DESIGN CHOICE (log 51): when a hold wait has expired with an earlier copy
of the tally still on the wire, the first of the two copies sent does this, and the sent event of the second finds AWAITING and changes
nothing. -/
def tallySent (c : Chip) (b : TallyBody) : Chip :=
  match Table.find b.tag c.slots with
  | some (i, ctx) =>
    match ctx.role with
    | .feeder f =>
      match f.tally with
      | some t =>
        if t.dest = b.dest ∧ t.seq = b.seq ∧ t.stage = .queued then
          c.setFeeder i ctx { f with tally := some { t with stage := .awaiting, timer := c.startSynced c.params.verdictTimeout } }
        else c
      | none => c
    | .anchor _ => c
  | none => c

/-- The sent event reaches the block that offered the frame (R93). -/
def sentEvent (c : Chip) (w : Wire) : Chip :=
  match w.frame with
  | .claim t => if w.queued && !w.withdraw then c.claimSent t else c
  | .tally b => if w.queued then c.tallySent b else c
  | _ => c

/-- A frame has been sent: it leaves the head of its queue, the strike is cleared, and the sent event is handed on (R93). -/
def frameSent (c : Chip) : Chip :=
  match c.link.wire with
  | none => c
  | some w =>
    let c1 := (c.withLink { c.link with strike := false, mediumIdle := false }).setWire none
    let c2 := if w.queued then c1.popHead w.cls else c1
    c2.sentEvent w

/-- A collision (R102): the frame is aborted, LINK-COLLISION advances, the medium is ignored until valid idle, and the strike is set or,
when it was already set, FAULTED is entered (R103), at the end of the sequence when the station is RESTARTING. -/
def collide (c : Chip) : Chip :=
  match c.link.wire with
  | none => c
  | some w =>
    let c1 := (c.unsend w).bump 11
    let c2 := c1.withLink { c1.link with receiver := .ignoring, mediumIdle := false, strike := true }
    if c.link.strike then
      if c2.cmd.mode = .restarting then c2.withCmd { c2.cmd with faultAtEnd := true }
      else if c2.cmd.mode = .faulted then c2
      else c2.enterFaulted.settleEvent
    else c2

/-! ## Receive faults -/

/-- The receiver loses its place (R88): what it has taken is discarded, a counter advances, and the medium is ignored until valid idle;
SETTLING goes back to SEEKING (R95). -/
def losePlace (c : Chip) (counter : Fin 16) : Chip :=
  if c.hearing then
    let c1 := c.bump counter
    c1.withLink { c1.link with
      receiver := .ignoring, mediumIdle := false,
      state := if c1.link.state = .settling then .seeking else c1.link.state,
      settle := if c1.link.state = .settling then .stopped else c1.link.settle }
  else c

/-- The frame being taken has ended; the next one is taken after the next valid idle (R87, R89). -/
def frameEnds (c : Chip) : Chip :=
  let c1 := c.mediumBusy
  c1.withLink { c1.link with receiver := .listening }

/-- A framed frame that is not valid is discarded and LINK-BAD-FRAME advances (R89). -/
def discardFrame (c : Chip) : Chip :=
  c.frameEnds.bump 10

/-! ## Presence -/

/-- The presence entry of a station is set. -/
def setPresence (c : Chip) (x : Station) (p : Presence) : Chip :=
  c.withLink { c.link with presence := c.link.presence.set x p }

/-- A valid frame from station `x` (R87, R100): in SYNCED the hold timer restarts, the countdown restarts at 4 intervals, and an ABSENT
station becomes PRESENT with a PEER-PRESENT event. -/
def validFrom (c : Chip) (x : Station) : Chip :=
  if c.synced then
    let p := c.link.presence[x]
    let c1 := (c.withLink { c.link with hold := c.start (Config.holdIntervals * c.interval) }).setPresence x
      { p with present := true, countdown := c.start (Config.absenceIntervals * c.interval) }
    if p.present then c1 else c1.offerStation .peerPresent x
  else c

/-- A frame of a kind has been heard whole (R87 to R89). A frame that cannot be placed is a long frame; a framed frame with a CRC or form
fault is discarded; a valid frame has the effects of R87 and is handed on when it is of the row's kind. DESIGN CHOICE (log 49): R178 orders
no PEER-PRESENT STATION notice (R100) among the notices that the frame itself causes; the model makes the effects of R87 first, so the
STATION notice is offered before them. -/
def hear (c : Chip) (k : FrameKind) (f : HeardFrame) (handOn : Chip → Chip) : Chip :=
  if !c.hearing then c
  else if !framed f then c.losePlace 9
  else if frameFault c.self f then c.discardFrame
  else if f.kind ≠ k.code then c
  else handOn (c.frameEnds.validFrom f.src)

/-! ## Link states -/

/-- Every timer that counts only while SYNCED, in one context: the settle timer of a claim, the verdict timer or hold wait of a tally
(R97). -/
def mapSyncTimers (g : Timer → Timer) (ctx : Context) : Context :=
  match ctx.role with
  | .anchor a => { ctx with role := .anchor { a with settle := g a.settle } }
  | .feeder f =>
    { ctx with role := .feeder { f with tally := f.tally.map fun t => { t with timer := g t.timer } } }

/-- The same in every context of the table. -/
def mapTableTimers (g : Timer → Timer) : List (Nat × Slot) → List (Nat × Slot)
  | [] => []
  | (i, .live ctx) :: r => (i, .live (mapSyncTimers g ctx)) :: mapTableTimers g r
  | (i, .owing t o) :: r => (i, .owing t o) :: mapTableTimers g r

/-- The link leaves SYNCED (R96, R97): the schedule and the hold timer stop, the countdowns do not run, and the timers that count only
while SYNCED are suspended. -/
def loseSync (c : Chip) : Chip :=
  (c.withSlots (mapTableTimers (Timer.suspend c.now) c.slots)).withLink { c.link with
    state := .seeking, hold := .stopped, nextPoint := .stopped, lastPoint := none,
    presence := c.link.presence.map fun p => { p with countdown := p.countdown.suspend c.now } }

/-- The hold timer expires (R96): SYNC-LOST is offered, and a station whose medium is at valid idle goes to SETTLING at once (R95 a). -/
def holdExpiry (c : Chip) : Chip :=
  match c.link.hold with
  | .running d =>
    if c.synced then ((c.reach d).loseSync.offerStation .syncLost c.self).leaveSeeking.settleEvent else c
  | _ => c

/-- The link enters SYNCED (R96, R97, R98): the hold timer starts, the countdown of each PRESENT entry restarts at 4 intervals, the last
beacon counts are cleared, the first schedule point falls self × (I / 8) later, and the suspended timers resume. -/
def enterSynced (c : Chip) : Chip :=
  (c.withSlots (mapTableTimers (Timer.resume c.now) c.slots)).withLink { c.link with
    state := .synced, settle := .stopped, hold := c.start (Config.holdIntervals * c.interval),
    nextPoint := c.start (c.self.val * c.eighth), lastPoint := none,
    presence := c.link.presence.map fun p =>
      { p with
        countdown := if p.present then c.start (Config.absenceIntervals * c.interval) else .stopped, lastBeacon := none } }

/-- 40 µs of idle have been counted in SETTLING (R95): SYNCED is entered, due tallies are formed (R131), and a frame may be begun
(R91). -/
def settleDone (c : Chip) : Chip :=
  match c.link.settle with
  | .running d =>
    if c.link.state = .settling then
      let c1 := (c.reach d).enterSynced.settleEvent
      if c1.link.mediumIdle then c1.beginFrame else c1
    else c
  | _ => c

/-! ## Beacons -/

/-- The frame is a BEACON. -/
def isBeacon (f : Frame) : Bool :=
  match f with
  | .beacon _ _ => true
  | _ => false

/-- A BEACON of this station is queued in class 3 or on the wire (R98); one on the wire counts also when RESTART has emptied its queue
(R105). -/
def beaconWaits (c : Chip) : Bool :=
  c.link.queues[(3 : Fin 4)].any isBeacon || c.link.wire.any fun w => isBeacon w.frame

/-- A schedule point falls (R98): the beacon count advances, and a BEACON with the count taken is offered to class 3 unless one is queued
or on the wire or class 3 is full. The next point falls I later. -/
def beaconPoint (c : Chip) : Chip :=
  match c.link.nextPoint with
  | .running d =>
    if c.synced then
      let c1 := c.reach d
      let n := c1.link.beaconCount
      let c2 := c1.withLink { c1.link with
        beaconCount := n + 1, nextPoint := .running (d + c1.interval), lastPoint := some d }
      if c2.beaconWaits then c2 else c2.offer 3 (.beacon c2.self n)
    else c
  | _ => c

/-- The missed-beacon count after a BEACON of count `n` (R100). -/
def missedAfter (p : Presence) (n : BitVec 8) : Nat :=
  match p.lastBeacon with
  | some l => if n = l then p.missed else countAdd p.missed (n - l - 1).toNat
  | none => p.missed

/-- A BEACON from the reference realigns the schedule: the next point falls (self - R) × (I / 8) after it (R99). "A station does not
receive while it transmits (R87), so a reference beacon that ends during one of the station's own frames does not realign it": with a
frame of its own on the wire the schedule stands. -/
def realign (c : Chip) (x : Station) : Chip :=
  if c.reference = some x ∧ c.link.wire = none then
    c.withLink { c.link with nextPoint := c.start ((c.self.val - x.val) * c.eighth), lastPoint := none }
  else c

/-- A valid BEACON (R99, R100). Outside SYNCED it changes nothing (R97). -/
def takeBeacon (c : Chip) (f : HeardFrame) : Chip :=
  if c.synced then
    let p := c.link.presence[f.src]
    (c.setPresence f.src { p with missed := missedAfter p (byteAt f.body 1), lastBeacon := some (byteAt f.body 1) }).realign f.src
  else c

/-! ## Absence -/

/-- The feeder contexts that the absence of `x` orphans (R101, R151): those anchored at `x`, and those whose outstanding tally is
addressed to `x`. -/
def fedTo (c : Chip) (x : Station) : List Nat :=
  (Table.contexts c.slots).filterMap fun p =>
    match p.2.role with
    | .feeder f =>
      if f.anchor = x || (match f.tally with | some t => t.dest = x | none => false) then some p.1 else none
    | .anchor _ => none

/-- The feeder-lost flag is set in every anchor context whose feeder set holds `x` (R65, R101). -/
def markLost (x : Station) : List (Nat × Slot) → List (Nat × Slot)
  | [] => []
  | (i, .live ctx) :: r =>
    (match ctx.role with
      | .anchor a =>
        if hasStation a.feeders x then (i, .live { ctx with role := .anchor { a with feederLost := true } }) else (i, .live ctx)
      | .feeder _ => (i, .live ctx)) :: markLost x r
  | (i, .owing t o) :: r => (i, .owing t o) :: markLost x r

/-- The absence countdown of station `x` expires while the link is SYNCED (R101). -/
def presenceExpiry (c : Chip) (x : Station) : Chip :=
  match c.link.presence[x].countdown with
  | .running d =>
    if c.synced then
      let c1 := c.reach d
      let c2 := (c1.setPresence x
        { c1.link.presence[x] with present := false, countdown := .stopped, lastBeacon := none }).offerStation .peerAbsent x
      let c3 := (c2.fedTo x).foldl (fun c i => c.orphan i .anchorAbsent) c2
      (c3.withSlots (markLost x c3.slots)).settleEvent
    else c
  | _ => c

end Chip

/-! ## The link's commands -/

/-- VALID_IDLE (R84). -/
def execValidIdle (s : State) : Host.Outcome State Fault Refusal :=
  onStation Chip.validIdle s

/-- MEDIUM_LEAVES_VALID_IDLE (R87). -/
def execMediumLeavesValidIdle (begins : Bool) (s : State) : Host.Outcome State Fault Refusal :=
  onStation (fun c => c.leaveValidIdle begins) s

/-- ARBITRATION_LOST (R92). -/
def execArbitrationLost (s : State) : Host.Outcome State Fault Refusal :=
  onStation Chip.loseArbitration s

/-- FRAME_SENT (R93). -/
def execFrameSent (s : State) : Host.Outcome State Fault Refusal :=
  onStation Chip.frameSent s

/-- COLLISION (R102). -/
def execCollision (s : State) : Host.Outcome State Fault Refusal :=
  onStation Chip.collide s

/-- FALSE_START (R88): counter LINK-FALSE-START. -/
def execFalseStart (s : State) : Host.Outcome State Fault Refusal :=
  onStation (fun c => c.losePlace 8) s

/-- LONG_FRAME (R88): counter LINK-LONG. -/
def execLongFrame (s : State) : Host.Outcome State Fault Refusal :=
  onStation (fun c => c.losePlace 9) s

/-- BAD_FRAME (R89): the frame is judged by the checks of R89; a frame that passes them is not this row's. -/
def execBadFrame (f : HeardFrame) (s : State) : Host.Outcome State Fault Refusal :=
  onStation (fun c => if c.hearing && framed f && frameFault c.self f then c.discardFrame else c) s

/-- LINK_SETTLE_DONE (R95). -/
def execLinkSettleDone (s : State) : Host.Outcome State Fault Refusal :=
  onStation Chip.settleDone s

/-- HOLD_TIMER_EXPIRY (R96). -/
def execHoldTimerExpiry (s : State) : Host.Outcome State Fault Refusal :=
  onStation Chip.holdExpiry s

/-- BEACON_POINT (R98). -/
def execBeaconPoint (s : State) : Host.Outcome State Fault Refusal :=
  onStation Chip.beaconPoint s

/-- PRESENCE_EXPIRY (R101). -/
def execPresenceExpiry (peer : Station) (s : State) : Host.Outcome State Fault Refusal :=
  onStation (fun c => c.presenceExpiry peer) s

end Sys2Proof.Machine
end

