-- ==== Sys2Proof/Machine/Heard.lean ====
section
/-! DEFINITION. The frames heard from other stations: BEACON, ANSWER, CLAIM, REASSERT, RELEASE (06_anchoring.md), TALLY and VERDICT
(07_feeding_and_verdicts.md). -/

namespace Sys2Proof.Machine

namespace Chip

/-! ## CLAIM, REASSERT, RELEASE -/

/-- A CLAIM taken from a station 1..7 (R110, R114, R116, R118, R121, R123). -/
def takeClaim (c : Chip) (f : HeardFrame) : Chip :=
  let t := tagAt f.body 0
  if f.src = 0 then c
  else
    let c1 := c.learn t f.src
    match Table.find t c1.slots with
    | none => c1
    | some (i, ctx) =>
      match ctx.role with
      | .feeder _ => c1
      | .anchor a =>
        if a.state = .claiming ∧ ¬a.claimSent then (c1.toFeeding i f.src).settleEvent else c1.offerReassert t

/-- A REASSERT taken from a station 1..7 (R110, R114, R116, R119, R121, R123). -/
def takeReassert (c : Chip) (f : HeardFrame) : Chip :=
  let t := tagAt f.body 0
  if f.src = 0 then c
  else
    let c1 := c.learn t f.src
    match Table.find t c1.slots with
    | none => c1
    | some (i, ctx) =>
      match ctx.role with
      | .anchor a =>
        if a.state = .claiming then (c1.toFeeding i f.src).settleEvent else (c1.endAnchor i .split none).settleEvent
      | .feeder fd =>
        if fd.state = .feeding then (c1.setFeeder i ctx { fd with anchor := f.src }).settleEvent else c1

/-- A RELEASE reaches a feeder context (R122): its unsent entries are recycled, and it is freed, or goes to RELEASE-WAIT while a tally
is outstanding. -/
def releaseFeeder (c : Chip) (i : Nat) (ctx : Context) (fd : Feeder) : Chip :=
  match fd.state with
  | .releaseWait => c
  | .feeding =>
    let n := match fd.tally with | some t => t.size | none => 0
    let unsent := fd.entries.drop n
    let c1 := (itemsOf unsent).foldl recycleBlock (c.returnEntries unsent.length)
    match fd.tally with
    | none => c1.freeFeeder i
    | some _ => c1.setFeeder i { ctx with idle := .stopped } { fd with state := .releaseWait, entries := fd.entries.take n }

/-- A RELEASE taken from a station 1..7 (R111, R112, R114, R122). -/
def takeRelease (c : Chip) (f : HeardFrame) : Chip :=
  let t := tagAt f.body 0
  if f.src = 0 then c
  else
    let c1 := c.retire t
    match Table.find t c1.slots with
    | none => c1
    | some (i, ctx) =>
      match ctx.role with
      | .anchor _ => (c1.endAnchor i .split none).settleEvent
      | .feeder fd => (c1.releaseFeeder i ctx fd).settleEvent

/-! ## TALLY -/

/-- A BLOCK entry judged at an OPEN or CLOSING anchor (R137): shape and overrun, covered, room, accept. -/
def judgeBlock (c : Chip) (i : Nat) (x : Station) (sizeCode : Nat) (ctx : Context) (a : Anchor) (k n sum : Nat) :
    Chip × EntryCode :=
  match shapeFault ctx.sizeCode ctx.cover a sizeCode k n with
  | some o => (c.endAnchor i o none, .ended)
  | none =>
    if Coverage.holds ctx.cover k then (c.addPeerDup i, .duplicate)
    else if noExtent ctx.cover k c.extFree c.params.extentCap then (c.addRefused i, .refused)
    else (((c.enterBlock i k n (foldReduce sum)).joinFeeder i x).completeOrFront i, .accept)

/-- A CLOSE entry judged at an OPEN or CLOSING anchor (R138). -/
def judgeClose (c : Chip) (i l e k : Nat) : Chip × EntryCode :=
  let (c1, res) := c.offerClose i l (foldReduce e) k
  match res with
  | .recorded => (c1, .accept)
  | .duplicate => (c1.addPeerDup i, .duplicate)
  | .ended => (c1, .ended)

/-- The entries of a tally, in order; once the object has ended every later entry is answered ENDED (R139). -/
def judgeEntries (i : Nat) (x : Station) (sizeCode : Nat) : List TallyEntry → Chip → Chip × List EntryCode
  | [], c => (c, [])
  | e :: es, c =>
    let r :=
      match c.anchor? i with
      | none => (c, EntryCode.ended)
      | some (ctx, a) =>
        match e with
        | .block k n sum _ => c.judgeBlock i x sizeCode ctx a k n sum
        | .close l fold k => c.judgeClose i l fold k
    let rs := judgeEntries i x sizeCode es r.1
    (rs.1, r.2 :: rs.2)

/-- A tally that the verdict memory does not answer (R136). -/
def judgeTally (c : Chip) (x : Station) (t : TallyBody) : Chip × Verdict :=
  match Table.find t.tag c.slots with
  | some (i, ctx) =>
    match ctx.role with
    | .anchor a =>
      if a.state = .claiming then (c, .hold)
      else
        let r := judgeEntries i x t.sizeCode t.entries c
        (r.1, .perEntry r.2)
    | .feeder f => (c, .moved f.anchor)
  | none =>
    if c.isRetired t.tag then (c, .retired)
    else
      match c.cached t.tag with
      | some y => (c, .moved y)
      | none => (c, .unknown)

/-- The verdict memory record of a station is set (R135). -/
def setVerdict (c : Chip) (x : Station) (v : VerdictBody) : Chip :=
  c.withVerdicts (c.verdicts.set x (some v))

/-- A tally is processed (R134 to R136, R140): a resend is answered from the verdict memory; otherwise it is judged, exactly one VERDICT is
queued in class 0, and a final verdict is recorded. -/
def answerTally (c : Chip) (x : Station) (t : TallyBody) : Chip :=
  let fresh :=
    let r := c.judgeTally x t
    let v : VerdictBody := { tag := t.tag, seq := t.seq, dest := x, verdict := r.2 }
    let c1 := r.1.push 0 (.verdict v)
    if r.2 = .hold then c1 else c1.setVerdict x v
  match c.verdicts[x] with
  | some v => if v.seq = t.seq ∧ v.tag = t.tag then c.push 0 (.verdict v) else fresh
  | none => fresh

/-- A TALLY handed on (R134, R202): taken from stations 1..7 when addressed to self; a body that fails a check of R202 counts as a bad
frame; with class 0 full it is discarded unprocessed (log 14). -/
def takeTally (c : Chip) (f : HeardFrame) : Chip :=
  if f.src = 0 ∨ stationOf (byteAt f.body 9) ≠ some c.self then c
  else
    match parseTally c.self f.body with
    | none => c.bump 10
    | some t => if c.hasPlace 0 then c.answerTally f.src t else c.bump 12

/-! ## VERDICT -/

/-- The noticed count of a feeder advances (R126). -/
def addNoticed (c : Chip) (i : Nat) : Chip :=
  match c.feeder? i with
  | none => c
  | some (ctx, f) => c.setFeeder i ctx { f with noticed := f.noticed + 1 }

/-- One code is applied to the entry in the same position (R142); `y` is the station that answered. DESIGN CHOICE (log 47): R40 advances
the refused count by a REFUSED verdict for an entry, and R142 b removes a CLOSE entry so coded as for ENDED, which names no count; the
model advances none. -/
def applyCode (i : Nat) (t : Tag) (y : Station) (c : Chip) (p : Entry × EntryCode) : Chip :=
  match p.1.body, p.2 with
  | .block b, .accept => (c.noticeBlock t y b).addNoticed i
  | .block b, .duplicate => (c.recycleBlock b).addPeerDup i
  | .block b, .refused => ((c.recycleBlock b).removeAdvisory i b.block).addRefused i
  | .block b, .ended => c.recycleBlock b
  | .close _ _ _, .duplicate => c.addPeerDup i
  | .close _ _ _, _ => c

/-- The tally of a context is resolved: its first `size` entries have returned to the pool and the pair slot is free (R142, R143). -/
def resolveEntries (c : Chip) (i : Nat) (t : Tally) : Chip :=
  match c.feeder? i with
  | none => c
  | some (ctx, f) =>
    ((c.returnEntries t.size).setPair t.dest none).setFeeder i ctx { f with entries := f.entries.drop t.size, tally := none }

/-- A per-entry verdict (R142, R143); a RELEASE-WAIT context is then freed (R150). -/
def takeCodes (c : Chip) (i : Nat) (ctx : Context) (f : Feeder) (t : Tally) (codes : List EntryCode) : Chip :=
  let c1 := (((f.entries.take t.size).zip codes).foldl (applyCode i ctx.tag t.dest) c).resolveEntries i t
  if f.state = .releaseWait then c1.freeFeeder i else c1

/-- A HOLD verdict (R144): the tally goes to HOLDING and the hold wait starts. -/
def takeHold (c : Chip) (i : Nat) (t : Tally) : Chip :=
  match c.feeder? i with
  | none => c
  | some (ctx, f) =>
    c.setFeeder i ctx { f with tally := some { t with stage := .holding, timer := c.startSynced c.params.verdictTimeout } }

/-- A RETIRED verdict (R146, R150): every entry is recycled, the tag is retired, and the context is freed. -/
def takeRetired (c : Chip) (i : Nat) (t : Tally) : Chip :=
  match c.feeder? i with
  | none => c
  | some (ctx, f) =>
    let c1 := (itemsOf f.entries).foldl recycleBlock ((c.returnEntries f.entries.length).setPair t.dest none)
    (c1.retire ctx.tag).freeFeeder i

/-- An UNKNOWN verdict: a FEEDING context claims (R147), a RELEASE-WAIT context is orphaned ANCHOR-LOST (R150). -/
def takeUnknown (c : Chip) (i : Nat) (f : Feeder) : Chip :=
  if f.state = .releaseWait then c.orphan i .anchorLost else c.toClaiming i

/-- A MOVED verdict naming `x` retargets the context (R145, R150): the tally is resolved, its entries are unsent again, and its visited set
is kept for the next tally. -/
def retarget (c : Chip) (i : Nat) (t : Tally) (x : Station) : Chip :=
  match c.feeder? i with
  | none => c
  | some (ctx, f) => (c.setPair t.dest none).setFeeder i ctx { f with anchor := x, tally := none, moved := some t.visited }

/-- A MOVED is followed when it names a station that is PRESENT, is not self, and is not in the tally's visited set (R145). -/
def follows (c : Chip) (t : Tally) (x : Station) : Bool :=
  c.isPresent x && x ≠ c.self && !hasStation t.visited x

/-- A verdict acts on the context whose tally it answers (R142 to R147, R150). -/
def actVerdict (c : Chip) (i : Nat) (ctx : Context) (f : Feeder) (t : Tally) (v : Verdict) : Chip :=
  match v with
  | .perEntry codes => c.takeCodes i ctx f t codes
  | .hold => c.takeHold i t
  | .moved x => if c.follows t x then c.retarget i t x else c.takeUnknown i f
  | .retired => c.takeRetired i t
  | .unknown => c.takeUnknown i f

/-- A per-entry verdict has exactly as many codes as the tally has entries (R141). -/
def countFits (v : Verdict) (t : Tally) : Bool :=
  match v with
  | .perEntry codes => codes.length = t.size
  | _ => true

/-- The tally that self has outstanding to station `y`, with its context (R129, R141). -/
def outstanding (c : Chip) (y : Station) : Option (Nat × Context × Feeder × Tally) :=
  match c.pair[y] with
  | none => none
  | some i =>
    match c.feeder? i with
    | none => none
    | some (ctx, f) =>
      match f.tally with
      | none => none
      | some t => some (i, ctx, f, t)

/-- A verdict that matches is taken (R141): the resend that is still queued is withdrawn (R149), and in FEEDING the idle timer
restarts. -/
def takeMatched (c : Chip) (i : Nat) (ctx : Context) (f : Feeder) (t : Tally) (v : Verdict) : Chip :=
  let c1 := c.withdrawTally ctx.tag t
  let c2 := if f.state = .feeding then c1.restartIdle i else c1
  (c2.actVerdict i ctx f t v).settleEvent

/-- A VERDICT handed on (R141, R203): taken when addressed to self and matching the tally outstanding to its sender, otherwise counted
VERDICT-STALE; one addressed to another station is not counted. -/
def takeVerdict (c : Chip) (f : HeardFrame) : Chip :=
  if stationOf (byteAt f.body 9) ≠ some c.self then c
  else
    match c.outstanding f.src, parseVerdict f.body with
    | some (i, ctx, fd, t), some v =>
      if t.seq = byteAt f.body 8 ∧ ctx.tag = tagAt f.body 0 ∧ countFits v t then c.takeMatched i ctx fd t v else c.bump 13
    | _, _ => c.bump 13

end Chip

/-! ## The rows of the frames heard -/

/-- BEACON_HEARD (R100). -/
def execBeaconHeard (f : HeardFrame) (s : State) : Host.Outcome State Fault Refusal :=
  onStation (fun c => c.hear .beacon f fun c => c.takeBeacon f) s

/-- ANSWER_HEARD (R86): an ANSWER counts only for presence and the hold timer. -/
def execAnswerHeard (f : HeardFrame) (s : State) : Host.Outcome State Fault Refusal :=
  onStation (fun c => c.hear .answer f id) s

/-- CLAIM_HEARD (R110). -/
def execClaimHeard (f : HeardFrame) (s : State) : Host.Outcome State Fault Refusal :=
  onStation (fun c => c.hear .claim f fun c => c.takeClaim f) s

/-- REASSERT_HEARD (R119). -/
def execReassertHeard (f : HeardFrame) (s : State) : Host.Outcome State Fault Refusal :=
  onStation (fun c => c.hear .reassert f fun c => c.takeReassert f) s

/-- RELEASE_HEARD (R122). -/
def execReleaseHeard (f : HeardFrame) (s : State) : Host.Outcome State Fault Refusal :=
  onStation (fun c => c.hear .release f fun c => c.takeRelease f) s

/-- TALLY_RECEIVED (R134). -/
def execTallyReceived (f : HeardFrame) (s : State) : Host.Outcome State Fault Refusal :=
  onStation (fun c => c.hear .tally f fun c => c.takeTally f) s

/-- VERDICT_RECEIVED (R141). -/
def execVerdictReceived (f : HeardFrame) (s : State) : Host.Outcome State Fault Refusal :=
  onStation (fun c => c.hear .verdict f fun c => c.takeVerdict f) s

end Sys2Proof.Machine
end

