-- ==== Sys2Proof/Machine/Timers.lean ====
section
/-! DEFINITION. The timers of the object table (03_object_contexts.md; 07_feeding_and_verdicts.md): batch delay, claim settle, idle
limits, verdict timer and hold wait. An expiry acts on a running timer alone, at its deadline (log 3). -/

namespace Sys2Proof.Machine

namespace Chip

/-- The oldest unsent entry of a FEEDING context has waited the batch delay (R130): the context becomes due, and pair slots are
arbitrated (R131). -/
def batchExpiry (c : Chip) (i : Nat) : Chip :=
  match c.feeder? i with
  | none => c
  | some (_, f) =>
    match f.oldest with
    | none => c
    | some e =>
      if f.state = .feeding ∧ f.tally = none then (c.reach (e.joined + c.params.batchDelay)).settleEvent else c

/-- Steps 1 and 2 of settle expiry (R42): the provisional blocks are noticed in list order, and the state becomes CLOSING when a close
is recorded and OPEN otherwise. -/
def settleAnchor (c : Chip) (i : Nat) (ctx : Context) (a : Anchor) : Chip :=
  (a.provisional.foldl (fun c b => c.noticeBlock ctx.tag c.self b) c).setAnchor i ctx
    { a with provisional := [], state := if a.close.isSome then .closing else .opened, settle := .stopped }

/-- The settle timer of a CLAIMING context expires (R42). -/
def settleExpiry (c : Chip) (i : Nat) : Chip :=
  match c.anchor? i with
  | none => c
  | some (ctx, a) =>
    match a.settle with
    | .running d =>
      if a.state = .claiming then (((c.reach d).settleAnchor i ctx a).completeOrFront i).settleEvent else c
    | _ => c

/-- The idle timer of an anchor expires: the object ends STALLED (R61). -/
def anchorIdleExpiry (c : Chip) (i : Nat) : Chip :=
  match c.anchor? i with
  | none => c
  | some (ctx, _) =>
    match ctx.idle with
    | .running d => ((c.reach d).endAnchor i .stalled none).settleEvent
    | _ => c

/-- The idle timer of a feeder expires in FEEDING (R62): the context is freed silently when it holds no entry and no tally, and its
timer restarts otherwise. -/
def feederIdleExpiry (c : Chip) (i : Nat) : Chip :=
  match c.feeder? i with
  | none => c
  | some (ctx, f) =>
    match ctx.idle with
    | .running d =>
      if f.state = .feeding then
        if f.entries.isEmpty ∧ f.tally = none then ((c.reach d).freeFeeder i).settleEvent
        else (c.reach d).restartIdle i
      else c
    | _ => c

/-- A tally is offered to class 2 again and returns to QUEUED (R144, R148). -/
def resend (c : Chip) (i : Nat) (ctx : Context) (f : Feeder) (t : Tally) (sends : Nat) : Chip :=
  (c.setFeeder i ctx { f with tally := some { t with sends := sends, stage := .queued, timer := .stopped } }).offer 2
    (tallyFrame ctx f t)

/-- The verdict timer of a tally in AWAITING expires (R148): a resend, or UNRESPONSIVE orphaning at the third send. -/
def verdictExpiry (c : Chip) (i : Nat) : Chip :=
  match c.feeder? i with
  | none => c
  | some (ctx, f) =>
    match f.tally with
    | none => c
    | some t =>
      match t.timer with
      | .running d =>
        if t.stage = .awaiting then
          if t.sends < Config.tallySends then (c.reach d).resend i ctx f t (t.sends + 1)
          else ((c.reach d).orphan i .unresponsive).settleEvent
        else c
      | _ => c

/-- The hold wait of a tally in HOLDING expires (R144): the tally is offered again, and its send count does not advance. -/
def holdWaitExpiry (c : Chip) (i : Nat) : Chip :=
  match c.feeder? i with
  | none => c
  | some (ctx, f) =>
    match f.tally with
    | none => c
    | some t =>
      match t.timer with
      | .running d => if t.stage = .holding then (c.reach d).resend i ctx f t t.sends else c
      | _ => c

end Chip

/-- BATCH_DELAY_EXPIRY (R130). -/
def execBatchDelayExpiry (slot : Nat) (s : State) : Host.Outcome State Fault Refusal :=
  onStation (fun c => c.batchExpiry slot) s

/-- SETTLE_EXPIRY (R42). -/
def execSettleExpiry (slot : Nat) (s : State) : Host.Outcome State Fault Refusal :=
  onStation (fun c => c.settleExpiry slot) s

/-- ANCHOR_IDLE_EXPIRY (R61). -/
def execAnchorIdleExpiry (slot : Nat) (s : State) : Host.Outcome State Fault Refusal :=
  onStation (fun c => c.anchorIdleExpiry slot) s

/-- FEEDER_IDLE_EXPIRY (R62). -/
def execFeederIdleExpiry (slot : Nat) (s : State) : Host.Outcome State Fault Refusal :=
  onStation (fun c => c.feederIdleExpiry slot) s

/-- VERDICT_TIMER_EXPIRY (R148). -/
def execVerdictTimerExpiry (slot : Nat) (s : State) : Host.Outcome State Fault Refusal :=
  onStation (fun c => c.verdictExpiry slot) s

/-- HOLD_WAIT_EXPIRY (R144). -/
def execHoldWaitExpiry (slot : Nat) (s : State) : Host.Outcome State Fault Refusal :=
  onStation (fun c => c.holdWaitExpiry slot) s

end Sys2Proof.Machine
end

