-- ==== Sys2Proof/Machine/Commands.lean ====
section
/-! DEFINITION. The command unit (10_commands_setup_and_start.md): taking a COMMAND, its answer, the setup, and the commands at work. -/

namespace Sys2Proof.Machine

namespace Chip

/-- The answer to a command is offered to class 3; a full class 3 refuses it and ANSWER-LOST advances (R188). -/
def offerAnswer (c : Chip) (body : List Byte) : Chip :=
  if c.hasPlace 3 then c.push 3 (.answer body) else c.bump 15

/-- The command memory takes a number and the answer given to it (R187). -/
def record (c : Chip) (number : Byte) (body : List Byte) : Chip :=
  c.withCmd { c.cmd with memory := some (number, body) }

/-- A command acted on is answered after its effects, with the mode as it then is, and recorded unless the answer is BUSY (R187,
R188). -/
def answer (c : Chip) (number kind : Byte) (r : Reply) : Chip :=
  let body := answerBody c.self c.cmd.mode number kind r
  let c1 := c.offerAnswer body
  if r.code = .busy then c1 else c1.record number body

/-- What stops a command before its own rule (R188): nothing stops BAD-COMMAND; the table BUILDING or the mode RESTARTING gives BUSY to all but QUERY and
COUNTERS, and FAULTED gives IN-FAULT to SETUP-PART, GO, QUIESCE and RESUME. -/
def gate (c : Chip) (row : CommandRow) : Option AnswerCode :=
  if row = .bad then none
  else if (c.fold.table = .building ∨ c.cmd.mode = .restarting) ∧ row ≠ .query ∧ row ≠ .counters then some .busy
  else if c.cmd.mode = .faulted ∧ (row = .setupPart ∨ row = .go ∨ row = .quiesce ∨ row = .resume) then some .inFault
  else none

/-- A command is taken (R187): a number equal to the one held is answered from the command memory; any other is stopped by the gate, or
acted on by its rule. A rule that answers none answers later (RESTART). -/
def takeCommand (c : Chip) (row : CommandRow) (body : List Byte) (rule : Chip → Chip × Option Reply) : Chip :=
  let number := byteAt body 1
  let kind := byteAt body 2
  let fresh :=
    match c.gate row with
    | some a => c.answer number kind (plainReply a)
    | none =>
      let r := rule c
      match r.2 with
      | some reply => r.1.answer number kind reply
      | none => r.1
  match c.cmd.memory with
  | some (n, held) => if n = number then c.offerAnswer held else fresh
  | none => fresh

/-- The row by which R188 judges a body: a SETUP-PART index above 3 is BAD-COMMAND, which comes before the gate. -/
def judgedRow (row : CommandRow) (body : List Byte) : CommandRow :=
  if row = .setupPart ∧ (byteAt body 3).toNat > 3 then .bad else row

/-- A COMMAND frame of a row: heard as any frame is, and taken when its mask names self (R187). A frame that is not of the row has no
effect here (log 32). -/
def command (c : Chip) (row : CommandRow) (f : HeardFrame) (rule : Chip → Chip × Option Reply) : Chip :=
  if commandRow f.body = row then
    c.hear .command f fun c => if maskNames c.self f.body then c.takeCommand (judgedRow row f.body) f.body rule else c
  else c

/-- The mode is set. -/
def setMode (c : Chip) (m : Mode) : Chip :=
  c.withCmd { c.cmd with mode := m }

/-! ## Setup -/

/-- SETUP-PART (R190): an index above 3 is BAD-COMMAND; otherwise the content is staged in WAITING-SETUP, and ALREADY is answered in
RUNNING and QUIESCED. -/
def setupPartRule (body : List Byte) (c : Chip) : Chip × Option Reply :=
  if h : (byteAt body 3).toNat < 4 then
    if c.cmd.mode = .waitingSetup then
      (c.withCmd { c.cmd with staging := c.cmd.staging.set (byteAt body 3).toNat (some (body.drop 4)) },
        some (plainReply .staged))
    else (c, some (plainReply .already))
  else (c, some (plainReply .badCommand))

/-- A setup is accepted (R193): each field goes to its owner, the consumer indices, the producer index and the consumer value are 0, the
next schedule point falls the new interval after the last one taken (log 18), the table is BUILDING with entry 0 in place, and the
staging is emptied. -/
def acceptSetup (c : Chip) (su : Setup) : Chip :=
  ((((c.withCmd { c.cmd with setup := some su, staging := Vector.replicate 4 none }).withFold
      { c.fold with table := .building, entries := [su.weight] }).withSmall { c.small with cons := 0 }).withLarge
      { c.large with cons := 0 }).withNotice { c.notice with pn := 0, cn := 0 }
  |>.withLink { c.link with
      nextPoint :=
        match c.link.nextPoint, c.link.lastPoint with
        | .running _, some l => .running (l + su.beaconInterval)
        | t, _ => t }

/-- What GO finds in the staging (R191): MISSING with the lowest absent index, REFUSED with the first failing field, or the setup. -/
def judgeSetup (staging : Vector (Option (List Byte)) 4) : Reply ⊕ Setup :=
  match staging[0], staging[1], staging[2], staging[3] with
  | none, _, _, _ => .inl { code := .missing, naming := 0, data := [] }
  | some _, none, _, _ => .inl { code := .missing, naming := 1, data := [] }
  | some _, some _, none, _ => .inl { code := .missing, naming := 2, data := [] }
  | some _, some _, some _, none => .inl { code := .missing, naming := 3, data := [] }
  | some p0, some p1, some p2, some p3 =>
    match setupFault p0 p1 p2 p3 with
    | some field => .inl { code := .refused, naming := field, data := [] }
    | none => .inr (setupOf p0 p1 p2 p3)

/-- GO (R191 to R193). -/
def goRule (c : Chip) : Chip × Option Reply :=
  if c.cmd.mode = .waitingSetup then
    match judgeSetup c.cmd.staging with
    | .inl reply => (c, some reply)
    | .inr su => (c.acceptSetup su, some (plainReply .accepted))
  else (c, some (plainReply .already))

/-- Entry 30 of the power table is formed (R27, R186, R193): the table is READY, and a station in WAITING-SETUP enters RUNNING, where
both classes test for refill (R159) and the latches are granted room (R177). A station that became FAULTED stays so (R184 b). -/
def tableReady (c : Chip) : Chip :=
  if c.fold.table = .building then
    let c1 := c.withFold { c.fold with table := .ready, entries := powerTable c.params.weight }
    if c1.cmd.mode = .waitingSetup then (((c1.setMode .running).testRefill .small).testRefill .large).serve else c1
  else c

/-! ## Commands at work -/

/-- QUERY (R194). -/
def queryRule (body : List Byte) (c : Chip) : Chip × Option Reply :=
  match Table.find (tagAt body 3) c.slots with
  | some (_, ctx) => (c, some { code := .reply, naming := 0, data := queryData c.self ctx })
  | none => (c, some (plainReply .notHere))

/-- ABORT (R63, R195). -/
def abortRule (body : List Byte) (c : Chip) : Chip × Option Reply :=
  match Table.find (tagAt body 3) c.slots with
  | some (i, ctx) =>
    match ctx.role with
    | .anchor _ => ((c.endAnchor i .aborted none).settleEvent, some (plainReply .done))
    | .feeder _ => (c, some (plainReply .notAnchor))
  | none => (c, some (plainReply .notHere))

/-- QUIESCE (R196). -/
def quiesceRule (c : Chip) : Chip × Option Reply :=
  if c.cmd.mode = .waitingSetup then (c, some (plainReply .noSetup)) else (c.setMode .quiesced, some (plainReply .done))

/-- RESUME (R196). -/
def resumeRule (c : Chip) : Chip × Option Reply :=
  if c.cmd.mode = .waitingSetup then (c, some (plainReply .noSetup)) else (c.setMode .running, some (plainReply .done))

/-- Every station counter and every missed-beacon count is 0 (R197, R198). -/
def clearCounters (c : Chip) : Chip :=
  (c.withCmd { c.cmd with counters := Vector.replicate 16 0 }).withLink
    { c.link with presence := c.link.presence.map fun p => { p with missed := 0 } }

/-- COUNTERS (R197): a clear flag other than 0 clears, after the values are taken. -/
def countersRule (body : List Byte) (c : Chip) : Chip × Option Reply :=
  (if byteAt body 3 ≠ 0 then c.clearCounters else c,
    some { code := .reply, naming := 0, data := countersData c.self c.cmd.counters c.link.presence })

/-- What RESTART does to the intake (R9): the segment is discarded, the rest of a unit in progress is taken in DISCARDING, and the handle
of a LANDING segment waits to be gathered (R166 item 3). Its pool reservations return at once (R73); its block reservation goes with all
others at step 4 (R182; log 25). DESIGN CHOICE (log 44): R164 lets the part write no further byte into the buffer and keeps those written;
payload bytes it has taken from the port and that have not reached host memory yet stay in flight, and PAYLOAD_WRITE_DONE lands them after
the RESTART. -/
def restartIntake (c : Chip) : Chip :=
  match c.intake.state with
  | .awaitHeader => if c.intake.headerBytes.isEmpty then c else c.endSegment .discarding
  | .deciding | .held =>
    match c.intake.seg with
    | some g => (c.releasePools g).endSegment (if g.flagTaken then .awaitHeader else .discarding)
    | none => c.endSegment .discarding
  | .landing =>
    match c.intake.seg with
    | some g =>
      let c1 := (c.releasePools g).endSegment .discarding
      (c1.withIntake { c1.intake with returning := g.handle }).withFold c1.fold.clear
    | none => (c.endSegment .discarding).withFold c.fold.clear
  | .discarding => c

/-- RESTART, step 1 (R198): RESTARTING is entered, the strike cleared and the FAULT pin deasserted (R104). The answer comes with step 6. -/
def restartRule (number : Byte) (c : Chip) : Chip × Option Reply :=
  let c1 := c.withCmd { c.cmd with mode := .restarting, faultPin := false, faultAtEnd := false, restartNumber := number }
  ((c1.withLink { c1.link with strike := false }).restartIntake, none)

/-- BAD-COMMAND (R187, R204). -/
def badRule (c : Chip) : Chip × Option Reply :=
  (c, some (plainReply .badCommand))

end Chip

/-! ## The rows -/

/-- SETUP_PART (R190). -/
def execSetupPart (f : HeardFrame) (s : State) : Host.Outcome State Fault Refusal :=
  onStation (fun c => c.command .setupPart f (Chip.setupPartRule f.body)) s

/-- The producer word of the notice ring is set to 0 when a GO has just been accepted (R179, R193). -/
def zeroProducer (before after : Chip) (m : Memory) : Memory :=
  if before.fold.table = .empty ∧ after.fold.table = .building then Memory.writeWord after.params.ringNotice.producer 0 m else m

/-- GO (R191). -/
def execGo (f : HeardFrame) (s : State) : Host.Outcome State Fault Refusal :=
  if s.chip.inReset then .next s
  else
    let c := s.chip.command .go f fun c => c.goRule
    .next ((s.withChip c).withMem (zeroProducer s.chip c s.mem))

/-- POWER_TABLE_READY (R27). -/
def execPowerTableReady (s : State) : Host.Outcome State Fault Refusal :=
  onStation Chip.tableReady s

/-- QUERY (R194). -/
def execQuery (f : HeardFrame) (s : State) : Host.Outcome State Fault Refusal :=
  onStation (fun c => c.command .query f (Chip.queryRule f.body)) s

/-- ABORT (R195). -/
def execAbort (f : HeardFrame) (s : State) : Host.Outcome State Fault Refusal :=
  onStation (fun c => c.command .abort f (Chip.abortRule f.body)) s

/-- QUIESCE (R196). -/
def execQuiesce (f : HeardFrame) (s : State) : Host.Outcome State Fault Refusal :=
  onStation (fun c => c.command .quiesce f Chip.quiesceRule) s

/-- RESUME (R196). -/
def execResume (f : HeardFrame) (s : State) : Host.Outcome State Fault Refusal :=
  onStation (fun c => c.command .resume f Chip.resumeRule) s

/-- COUNTERS (R197). -/
def execCounters (f : HeardFrame) (s : State) : Host.Outcome State Fault Refusal :=
  onStation (fun c => c.command .counters f (Chip.countersRule f.body)) s

/-- RESTART (R198). -/
def execRestart (f : HeardFrame) (s : State) : Host.Outcome State Fault Refusal :=
  onStation (fun c => c.command .restart f (Chip.restartRule (byteAt f.body 1))) s

/-- BAD_COMMAND (R187). -/
def execBadCommand (f : HeardFrame) (s : State) : Host.Outcome State Fault Refusal :=
  onStation (fun c => c.command .bad f Chip.badRule) s

end Sys2Proof.Machine
end

