-- ==== Sys2Proof/Machine/Restart.lean ====
section
/-! DEFINITION. The end of the RESTART sequence (10 R198 steps 3 to 7; 08 R166 to R168): gathering, discard, RETURN notices, the
answer, and leaving RESTARTING. -/

namespace Sys2Proof.Machine

/-- Handles four to a notice, the last notice with what remains (R167). -/
def fours : List Handle → List (List Handle)
  | [] => []
  | a :: b :: c :: d :: r => [a, b, c, d] :: fours r
  | r => [r]

/-- The RETURN notices of one class (R167). -/
def returnNotices (cls : BufClass) (hs : List Handle) : List Notice :=
  (fours hs).map (.returned cls)

namespace Chip

/-- The handles of provisional blocks, by ascending table index (R166 item 4). -/
def provisionalHandles (c : Chip) : List Handle :=
  (Table.contexts c.slots).flatMap fun p =>
    match p.2.role with
    | .anchor a => a.provisional.map BlockItem.handle
    | .feeder _ => []

/-- The handles of pending BLOCK entries, by ascending table index and arrival order (R166 item 5). -/
def entryHandles (c : Chip) : List Handle :=
  (Table.contexts c.slots).flatMap fun p =>
    match p.2.role with
    | .anchor _ => []
    | .feeder f => (itemsOf f.entries).map BlockItem.handle

/-- The queued records that no write is in progress for (R166, R182). -/
def unwritten (c : Chip) : List Notice :=
  match c.notice.writing with
  | some w => if w.queued then c.notice.queue.tail else c.notice.queue
  | none => c.notice.queue

/-- The handle of a BLOCK notice (R166 item 6). A RETURN notice still unwritten from an earlier RESTART is not gathered: the item names
BLOCK notices alone, and the bound of R167 a counts no others (log 40). -/
def blockHandle (n : Notice) : Option Handle :=
  match n with
  | .block _ _ b => some b.handle
  | _ => none

/-- The handles of a class in gathering order (R166). -/
def gathered (c : Chip) (cls : BufClass) : List Handle :=
  let others := c.intake.returning.toList ++ c.provisionalHandles ++ c.entryHandles
    ++ c.unwritten.filterMap blockHandle
  (c.pool cls).cache ++ (c.pool cls).stack ++ others.filter fun h => h.cls = cls

/-- A class of the buffer manager is emptied; its consumer index is kept (R166). -/
def emptyPool (p : BufferPool) : BufferPool :=
  { p with cache := [], stack := [] }

end Chip

/-- The emptied notice queue ends the rereads of the consumer word (R181); a read in progress completes (R182). -/
def Poll.emptied : Poll → Poll
  | .waiting _ => .idle
  | p => p

namespace Chip

/-- Step 4 (R198): what RESTART discards (R82, R105, R153, R182). A frame on the wire and a record being written go on, apart from the
queues they headed. -/
def discardAll (c : Chip) : Chip :=
  (((((((((((c.clearCounters.withSlots []).withExtFree Config.extentRecords).withPendFree Config.pendingEntries).withCache
    []).withRetired []).withPair (Vector.replicate 8 none)).withVerdicts (Vector.replicate 8 none)).withSmall
    (emptyPool c.small)).withLarge (emptyPool c.large)).withNotice
      { c.notice with
        queue := [], re := 0, rb := 0, latches := [], poll := c.notice.poll.emptied,
        writing := c.notice.writing.map fun w => { w with queued := false } }).withIntake
      { c.intake with returning := none })
  |>.withLink { c.clearCounters.link with
      queues := Vector.replicate 4 [],
      wire := c.link.wire.map fun w => { w with queued := false, withdraw := false } }

/-- Steps 3 to 5: the handles are gathered, everything is discarded, and the RETURN notices are queued, SMALL first (R167). -/
def gatherAndDiscard (c : Chip) : Chip :=
  let returns := returnNotices .small (c.gathered .small) ++ returnNotices .large (c.gathered .large)
  let c1 := c.discardAll
  c1.withNotice { c1.notice with queue := returns }

/-- Step 6: RESTARTED is queued in class 3 and recorded (R198, R187); the mode it carries is RESTARTING (log 23). -/
def answerRestart (c : Chip) : Chip :=
  c.answer c.cmd.restartNumber 8 (plainReply .restarted)

/-- Step 7: RESTARTING is left for FAULTED after a second consecutive collision, for RUNNING with a setup, and for WAITING-SETUP without
(R103, R184); both classes test for refill (R168). -/
def leaveRestart (c : Chip) : Chip :=
  let c1 :=
    if c.cmd.faultAtEnd then c.enterFaulted
    else c.setMode (if c.cmd.setup.isSome then .running else .waitingSetup)
  ((c1.testRefill .small).testRefill .large).serve

/-- RESTART_GATHER: once no refill runs in a RESTARTING station, steps 3 to 7 of R198 are one event (R166). -/
def restartGather (c : Chip) : Chip :=
  if c.cmd.mode = .restarting ∧ c.small.refill = .idle ∧ c.large.refill = .idle then
    c.gatherAndDiscard.answerRestart.leaveRestart
  else c

end Chip

/-- RESTART_GATHER (R166). -/
def execRestartGather (s : State) : Host.Outcome State Fault Refusal :=
  onStation Chip.restartGather s

end Sys2Proof.Machine
end

