-- ==== Sys2Proof/Machine/Buffers.lean ====
section
/-! DEFINITION. Refills and payload writes at the memory port (08_landing_buffers_and_free_rings.md sections 8.4 and 8.6). -/

namespace Sys2Proof.Machine

namespace Chip

/-- The refill of a class is at a stage. -/
def setRefill (c : Chip) (cls : BufClass) (r : Refill) : Chip :=
  c.withPool cls { c.pool cls with refill := r }

/-- The handles available in a ring: A = (producer - C) modulo M (R156). -/
def available (c : Chip) (cls : BufClass) (producer : Nat) : Nat :=
  let m := (c.ring cls).size
  (producer % m + m - (c.pool cls).cons) % m

/-- The host address of entry `e` of a free ring: 16-byte entries, "numbered 0..M - 1 from the base" (R156, R200). -/
def entryAddr (c : Chip) (cls : BufClass) (e : Nat) : Addr :=
  (c.ring cls).base + BitVec.ofNat 64 (16 * e)

/-- The entry a refill reads once `got` have arrived: "Entries C, C + 1, … are read, modulo M" (R160). -/
def refillEntry (c : Chip) (cls : BufClass) (got : Nat) : Nat :=
  ((c.pool cls).cons + got) % (c.ring cls).size

/-- The host address the refill of a class reads as it stands: the producer word in PRODUCER, the next ring entry in ENTRIES
(R160). -/
def refillRead (c : Chip) (cls : BufClass) : Option Addr :=
  match (c.pool cls).refill with
  | .producer _ => some (c.ring cls).producer
  | .entries _ got => some (c.entryAddr cls (c.refillEntry cls got))
  | .idle | .consumer _ => none

/-- The value of the producer word arrives (R160): R is the lesser of A and 16 - n; with R = 0 the refill ends (R161; log 15). -/
def producerArrives (c : Chip) (cls : BufClass) (word : BitVec 32) : Chip :=
  match (c.pool cls).refill with
  | .producer n =>
    let r := min (c.available cls word.toNat) (Config.cacheHandles - n)
    c.setRefill cls (if r = 0 then .idle else .entries r 0)
  | _ => c

/-- A ring entry arrives (R160): its handle, a handle of its own (R154), joins the tail of the cache, and the R-th entry begins the
CONSUMER stage. -/
def entryArrives (c : Chip) (cls : BufClass) (entry : List Byte) : Chip :=
  match (c.pool cls).refill with
  | .entries r got =>
    (c.withPool cls { c.pool cls with
      cache := (c.pool cls).cache ++ [ringHandle cls c.handlesTaken entry],
      refill := if got + 1 = r then .consumer r else .entries r (got + 1) }).withHandlesTaken (c.handlesTaken + 1)
  | _ => c

/-- A value read at an address is an answer to the refill of a class when that is the address the refill reads (log 32). -/
def refillAnswer (c : Chip) (cls : BufClass) (addr : Addr) (take : Chip → Chip) : Chip :=
  if c.refillRead cls = some addr then take c else c

/-- The consumer index once the refill of R entries has ended (R160). -/
def nextCons (c : Chip) (cls : BufClass) (r : Nat) : Nat :=
  ((c.pool cls).cons + r) % (c.ring cls).size

/-- The consumer word is written (R160): C has advanced by R, the refill ends, and the condition of R159 is tested (log 19). -/
def consumerWritten (c : Chip) (cls : BufClass) (r : Nat) : Chip :=
  (c.withPool cls { c.pool cls with cons := c.nextCons cls r, refill := .idle }).testRefill cls

end Chip

/-- The first `n` payload bytes in flight for a handle, in order (R164). -/
def firstOf (h : Handle) : Nat → List PayloadWrite → List PayloadWrite
  | 0, _ => []
  | _, [] => []
  | n + 1, w :: ws => if w.handle = h then w :: firstOf h n ws else firstOf h (n + 1) ws

/-- What stays in flight once they are written. -/
def afterFirst (h : Handle) : Nat → List PayloadWrite → List PayloadWrite
  | 0, ws => ws
  | _, [] => []
  | n + 1, w :: ws => if w.handle = h then afterFirst h n ws else w :: afterFirst h (n + 1) ws

/-- Payload bytes stand in host memory (R164). -/
def landWrites (ws : List PayloadWrite) (m : Memory) : Memory :=
  ws.foldl (fun m w => Memory.write w.addr.toNat w.data m) m

/-- PRODUCER_WORD_ARRIVES (R160). -/
def execProducerWordArrives (cls : BufClass) (word : HostRead (BitVec 32)) (s : State) : Host.Outcome State Fault Refusal :=
  onStation (fun c => c.refillAnswer cls word.addr fun c => c.producerArrives cls word.value) s

/-- RING_ENTRY_ARRIVES (R160). -/
def execRingEntryArrives (cls : BufClass) (entry : HostRead (List Byte)) (s : State) : Host.Outcome State Fault Refusal :=
  onStation (fun c => c.refillAnswer cls entry.addr fun c => c.entryArrives cls entry.value) s

/-- CONSUMER_WORD_WRITTEN (R160). -/
def execConsumerWordWritten (cls : BufClass) (s : State) : Host.Outcome State Fault Refusal :=
  let c := s.chip
  match (c.pool cls).refill with
  | .consumer r =>
    if c.inReset then .next s
    else
      .next ((s.withChip (c.consumerWritten cls r)).withMem
        (Memory.writeWord (c.ring cls).consumer (c.nextCons cls r) s.mem))
  | _ => .next s

/-- PAYLOAD_WRITE_DONE (R164): the oldest `count` bytes in flight for the handle are in host memory (log 21). -/
def execPayloadWriteDone (h : Handle) (count : Nat) (s : State) : Host.Outcome State Fault Refusal :=
  let ws := s.chip.payloadWrites
  if s.chip.inReset then .next s
  else
    .next ((s.withChip (s.chip.withPayloadWrites (afterFirst h count ws))).withMem (landWrites (firstOf h count ws) s.mem))

end Sys2Proof.Machine
end

