-- ==== Sys2Proof/Machine/Notices.lean ====
section
/-! DEFINITION. The notice ring (09_notices.md section 9.5): beginning and ending a record write, and reading the consumer word while the
ring is full. -/

namespace Sys2Proof.Machine

namespace Chip

/-- A payload write of a handle the notice carries is still in progress (R164, R180). -/
def payloadPending (c : Chip) (n : Notice) : Bool :=
  c.payloadWrites.any fun w => w.handle ∈ n.handles

/-- The notice unit would begin a write (R180): a record whose payload is still being written waits, whatever the ring; at a full ring
the unit reads the consumer word (R181). -/
def beginWrite (c : Chip) : Chip :=
  match c.notice.queue, c.notice.writing with
  | n :: _, none =>
    if c.cmd.setup.isNone then c
    else if c.payloadPending n then c
    else if c.ringFull then
      if c.notice.poll = .idle then c.withNotice { c.notice with poll := .reading } else c
    else c.withNotice { c.notice with writing := some { notice := n, queued := true } }
  | _, _ => c

/-- The 32 bytes of the record being written, with the identity of the writing station's filter (R6, R206). -/
def recordBytes (c : Chip) (n : Notice) : List Byte :=
  n.bytes c.params.filterMode c.params.filterTags

/-- The address of entry Pn of the notice ring (R179, R180). -/
def recordAddr (c : Chip) : Addr :=
  c.params.ringNotice.base + BitVec.ofNat 64 (32 * c.notice.pn)

/-- Pn advanced by one modulo M (R180). -/
def nextPn (c : Chip) : Nat :=
  (c.notice.pn + 1) % c.params.ringNotice.size

/-- A record write ends (R180): the record leaves the queue, the waiters are served, and Pn advances. After a RESTART the record has left
the queue already (R182; log 28). -/
def endWrite (c : Chip) (w : RecordWrite) : Chip :=
  let c1 := c.withNotice { c.notice with
    writing := none, queue := if w.queued then c.notice.queue.tail else c.notice.queue }
  let c2 := c1.serve
  c2.withNotice { c2.notice with pn := c.nextPn }

/-- The consumer word is to be read again: the ring is full and a record waits (R181). -/
def mustPoll (c : Chip) : Bool :=
  c.ringFull && !c.notice.queue.isEmpty

/-- 8 µs have passed since the last read (R181). -/
def pollExpiry (c : Chip) : Chip :=
  match c.notice.poll with
  | .waiting (.running d) =>
    let c1 := c.reach d
    c1.withNotice { c1.notice with poll := if c1.mustPoll then .reading else .idle }
  | _ => c

/-- The host address the notice unit reads as it stands: its ring's consumer word, while that is being read (R181). -/
def pollRead (c : Chip) : Option Addr :=
  if c.notice.poll = .reading then some c.params.ringNotice.consumer else none

/-- The value of the notice ring's consumer word arrives (R179, R181): Cn is set from it, and a ring still full is read again 8 µs later
(log 24). -/
def consumerArrives (c : Chip) (word : BitVec 32) : Chip :=
  if c.notice.poll = .reading then
    let c1 := c.withNotice { c.notice with cn := word.toNat % c.params.ringNotice.size }
    c1.withNotice { c1.notice with poll := if c1.mustPoll then .waiting (c1.start Config.pollTime) else .idle }
  else c

end Chip

/-- NOTICE_WRITE_BEGIN (R180). -/
def execNoticeWriteBegin (s : State) : Host.Outcome State Fault Refusal :=
  onStation Chip.beginWrite s

/-- NOTICE_WRITE_END (R180): the record and then the producer word stand in host memory. -/
def execNoticeWriteEnd (s : State) : Host.Outcome State Fault Refusal :=
  let c := s.chip
  match c.notice.writing with
  | some w =>
    if c.inReset then .next s
    else
      .next ((s.withChip (c.endWrite w)).withMem
        (Memory.writeWord c.params.ringNotice.producer c.nextPn
          (Memory.writeBytes c.recordAddr (c.recordBytes w.notice) s.mem)))
  | none => .next s

/-- CONSUMER_POLL_EXPIRY (R181). -/
def execConsumerPollExpiry (s : State) : Host.Outcome State Fault Refusal :=
  onStation Chip.pollExpiry s

/-- CONSUMER_WORD_ARRIVES (R181): a value read at another address is no answer to this read (log 32). -/
def execConsumerWordArrives (word : HostRead (BitVec 32)) (s : State) : Host.Outcome State Fault Refusal :=
  onStation (fun c => if c.pollRead = some word.addr then c.consumerArrives word.value else c) s

end Sys2Proof.Machine
end

