-- ==== Sys2Proof/Machine/Pins.lean ====
section
/-! DEFINITION. The RESET pin and the straps (10_commands_setup_and_start.md sections 10.1 and 10.3). -/

namespace Sys2Proof.Machine

/-- The bytes of an abandoned record that have reached host memory (R182): which of them is open (log 7). -/
def writeAbandoned (n i : Nat) : Addr → List Byte → Memory → Memory
  | _, [], m => m
  | a, b :: bs, m =>
    writeAbandoned n (i + 1) (a + 1) bs (if Config.abandonedByte n i then Memory.write a.toNat b m else m)

/-- What an abandoned record write leaves (R182): the producer word is not advanced for it. -/
def abandonRecord (c : Chip) (m : Memory) : Memory :=
  match c.notice.writing with
  | some w => writeAbandoned c.freeIndex 0 c.recordAddr (c.recordBytes w.notice) m
  | none => m

/-- What an abandoned refill leaves (R160): in the CONSUMER stage the word is written or not (log 7). -/
def abandonConsumer (c : Chip) (cls : BufClass) (m : Memory) : Memory :=
  match (c.pool cls).refill with
  | .consumer r =>
    if Config.abandonedConsumerWord c.freeIndex cls then Memory.writeWord (c.ring cls).consumer (c.nextCons cls r) m else m
  | _ => m

/-- PIN_RESET (R185): the whole station is cleared at once. Payload writes, refills and the record write are abandoned (R160, R169,
R182). The clock goes on, and the free counter advances. -/
def execPinReset (s : State) : Host.Outcome State Fault Refusal :=
  .next ((s.withChip ((Chip.reset.withNow s.chip.now).withFreeIndex (s.chip.freeIndex + 1))).withMem
    (abandonConsumer s.chip .large (abandonConsumer s.chip .small (abandonRecord s.chip s.mem))))

/-- PIN_RESET_RELEASE (R183, R186): the straps are read once, and strap 0 asserts the FAULT pin (R104). Only a release of an asserted
RESET pin is one. -/
def execPinResetRelease (straps : Station) (s : State) : Host.Outcome State Fault Refusal :=
  if s.chip.inReset then
    let c := (s.chip.withInReset false).withSelf straps
    .next (s.withChip (c.withCmd { c.cmd with faultPin := straps = 0 }))
  else .next s

end Sys2Proof.Machine
end

