-- ==== Sys2Proof/Machine/Dispatch.lean ====
section
/-! DEFINITION. One arm for each command of the opcode table. -/

namespace Sys2Proof.Machine

def exec (i : Instr) (s : State) : Host.Outcome State Fault Refusal :=
  match i with
  | .pinReset => Sys2Proof.Machine.execPinReset s
  | .pinResetRelease straps => Sys2Proof.Machine.execPinResetRelease straps s
  | .segmentHeader byte => Sys2Proof.Machine.execSegmentHeader byte s
  | .tableWalkDone => Sys2Proof.Machine.execTableWalkDone s
  | .closeFlag good => Sys2Proof.Machine.execCloseFlag good s
  | .payloadByte byte => Sys2Proof.Machine.execPayloadByte byte s
  | .discardByte byte => Sys2Proof.Machine.execDiscardByte byte s
  | .discardFlag good => Sys2Proof.Machine.execDiscardFlag good s
  | .landingFlag good => Sys2Proof.Machine.execLandingFlag good s
  | .intakeRoomGranted => Sys2Proof.Machine.execIntakeRoomGranted s
  | .validIdle => Sys2Proof.Machine.execValidIdle s
  | .arbitrationLost => Sys2Proof.Machine.execArbitrationLost s
  | .frameSent => Sys2Proof.Machine.execFrameSent s
  | .collision => Sys2Proof.Machine.execCollision s
  | .falseStart => Sys2Proof.Machine.execFalseStart s
  | .longFrame => Sys2Proof.Machine.execLongFrame s
  | .badFrame frame => Sys2Proof.Machine.execBadFrame frame s
  | .linkSettleDone => Sys2Proof.Machine.execLinkSettleDone s
  | .holdTimerExpiry => Sys2Proof.Machine.execHoldTimerExpiry s
  | .beaconPoint => Sys2Proof.Machine.execBeaconPoint s
  | .presenceExpiry peer => Sys2Proof.Machine.execPresenceExpiry peer s
  | .beaconHeard frame => Sys2Proof.Machine.execBeaconHeard frame s
  | .answerHeard frame => Sys2Proof.Machine.execAnswerHeard frame s
  | .claimHeard frame => Sys2Proof.Machine.execClaimHeard frame s
  | .reassertHeard frame => Sys2Proof.Machine.execReassertHeard frame s
  | .releaseHeard frame => Sys2Proof.Machine.execReleaseHeard frame s
  | .tallyReceived frame => Sys2Proof.Machine.execTallyReceived frame s
  | .verdictReceived frame => Sys2Proof.Machine.execVerdictReceived frame s
  | .batchDelayExpiry slot => Sys2Proof.Machine.execBatchDelayExpiry slot s
  | .settleExpiry slot => Sys2Proof.Machine.execSettleExpiry slot s
  | .anchorIdleExpiry slot => Sys2Proof.Machine.execAnchorIdleExpiry slot s
  | .feederIdleExpiry slot => Sys2Proof.Machine.execFeederIdleExpiry slot s
  | .verdictTimerExpiry slot => Sys2Proof.Machine.execVerdictTimerExpiry slot s
  | .holdWaitExpiry slot => Sys2Proof.Machine.execHoldWaitExpiry slot s
  | .setupPart frame => Sys2Proof.Machine.execSetupPart frame s
  | .go frame => Sys2Proof.Machine.execGo frame s
  | .powerTableReady => Sys2Proof.Machine.execPowerTableReady s
  | .query frame => Sys2Proof.Machine.execQuery frame s
  | .abort frame => Sys2Proof.Machine.execAbort frame s
  | .quiesce frame => Sys2Proof.Machine.execQuiesce frame s
  | .resume frame => Sys2Proof.Machine.execResume frame s
  | .counters frame => Sys2Proof.Machine.execCounters frame s
  | .restart frame => Sys2Proof.Machine.execRestart frame s
  | .badCommand frame => Sys2Proof.Machine.execBadCommand frame s
  | .restartGather => Sys2Proof.Machine.execRestartGather s
  | .producerWordArrives cls word => Sys2Proof.Machine.execProducerWordArrives cls word s
  | .ringEntryArrives cls entry => Sys2Proof.Machine.execRingEntryArrives cls entry s
  | .consumerWordWritten cls => Sys2Proof.Machine.execConsumerWordWritten cls s
  | .noticeWriteBegin => Sys2Proof.Machine.execNoticeWriteBegin s
  | .noticeWriteEnd => Sys2Proof.Machine.execNoticeWriteEnd s
  | .payloadWriteDone handle count => Sys2Proof.Machine.execPayloadWriteDone handle count s
  | .consumerPollExpiry => Sys2Proof.Machine.execConsumerPollExpiry s
  | .consumerWordArrives word => Sys2Proof.Machine.execConsumerWordArrives word s
  | .headerByte byte => Sys2Proof.Machine.execHeaderByte byte s
  | .closePayloadByte byte => Sys2Proof.Machine.execClosePayloadByte byte s
  | .mediumLeavesValidIdle begins => Sys2Proof.Machine.execMediumLeavesValidIdle begins s

end Sys2Proof.Machine
end

