-- ==== Sys2Proof/Machine/Step.lean ====
section
/-! DEFINITION. One step: the command at the front of the queue, or one microsecond of the clock when none waits. -/

namespace Sys2Proof.Machine

/-- One step. With a command in front, its meaning on the state with the queue's rest; with none, the block idles and the model's
clock counts one microsecond (log 2). -/
def step (s : State) : Host.Outcome State Fault Refusal :=
  match s.pending with
  | [] => .next (s.withChip (s.chip.withNow (s.chip.now + 1)))
  | i :: rest => exec i (s.withPending rest)

/-- The state with the command that a table word spells in front of its queue; no word spells one. -/
def State.withFetchWord (s : State) (nbits w : Nat) : State :=
  match decodeTableWord nbits w with
  | some i => s.withPending (i :: s.pending)
  | none => s

end Sys2Proof.Machine
end

