-- ==== Sys2Proof/Safety.lean ====
section
/-! DEFINITION. The terms claims use: what a well-behaved station satisfies, when a frame or a command is taken, and which parts of the
station an event may touch beside its own effect. -/

namespace Sys2Proof.Machine

/-- The COMMAND of a row, as a command of the block. -/
def commandOf (row : CommandRow) (f : HeardFrame) : Instr :=
  match row with
  | .setupPart => .setupPart f
  | .go => .go f
  | .query => .query f
  | .abort => .abort f
  | .quiesce => .quiesce f
  | .resume => .resume f
  | .counters => .counters f
  | .restart => .restart f
  | .bad => .badCommand f

/-- `n` consecutive addresses from `a` on, modulo 2^64. -/
def span (a : Addr) (n : Nat) : List Nat :=
  (List.range n).map fun i => (a + BitVec.ofNat 64 i).toNat

/-- The 16-bit symbol `i` of a payload, the high byte first, a missing low byte being 0 (R22). -/
def symbol (payload : List Byte) (i : Nat) : Nat :=
  256 * (byteAt payload (2 * i)).toNat + (byteAt payload (2 * i + 1)).toNat

/-- A tally entry whose fields are in the ranges of R202. -/
def TallyEntry.inRange : TallyEntry → Bool
  | .block k n sum _ => k < 2 ^ 32 && 1 ≤ n && n ≤ 65536 && sum < 2 ^ 32
  | .close l e c => c ≤ 7 && l < 2 ^ 48 && l ≤ blockSize c * 2 ^ 32 && e < 2 ^ 32

/-- A verdict whose fields are in the ranges of R203: 1 to 8 codes, and MOVED names a station 1..7. -/
def Verdict.inRange : Verdict → Bool
  | .perEntry codes => 1 ≤ codes.length && codes.length ≤ 8
  | .moved x => x ≠ 0
  | _ => true

namespace Chip

/-! ## Invariants -/

/-- The claim cache and the retired list keep their form (R109, R111, R112, R113): at most 512 entries with distinct tags, at most 64
distinct tags, and no tag in both. -/
abbrev heardOk (c : Chip) : Prop :=
  c.cache.length ≤ Config.cacheEntries ∧ (c.cache.map Prod.fst).Nodup ∧ c.retired.length ≤ Config.retiredTags ∧
    c.retired.Nodup ∧ ∀ e ∈ c.cache, e.1 ∉ c.retired

/-- Every transmit queue is within its depth (R90). -/
abbrev queuesOk (c : Chip) : Prop :=
  ∀ q : Fin 4, c.link.queues[q].length ≤ queueDepth q

/-- The object table keeps its form (R38): slots listed by rising index, each below 256, and at most one context for any tag. -/
abbrev tableOk (c : Chip) : Prop :=
  (c.slots.map Prod.fst).Pairwise (· < ·) ∧ (∀ p ∈ c.slots, p.1 < Config.tableSlots) ∧
    ((Table.contexts c.slots).map fun p => p.2.tag).Nodup

/-- The counts that stay at 65535 do not pass it (R21, R100, R177). -/
abbrev countsOk (c : Chip) : Prop :=
  (∀ n : Fin 16, c.cmd.counters[n] ≤ 65535) ∧ (∀ x : Station, c.link.presence[x].missed ≤ 65535) ∧
    ∀ l ∈ c.notice.latches, l.count ≤ 65535

/-- The FAULT pin is asserted exactly while the station is FAULTED or its strap value is 0 (R104). Under an asserted RESET pin the link is
as it is after reset, and a station strapped to 0 stays in SEEKING, takes no frame and begins none. -/
abbrev faultPinOk (c : Chip) : Prop :=
  if c.inReset then
    c.cmd.mode = .waitingSetup ∧ c.cmd.faultPin = false ∧ c.link.state = .seeking ∧ c.link.receiver = .listening ∧ c.link.wire = none
  else
    (c.cmd.faultPin = true ↔ c.cmd.mode = .faulted ∨ c.self = 0) ∧
      (c.self = 0 → c.link.state = .seeking ∧ c.link.receiver ≠ .taking ∧ c.link.wire = none)

/-- The intake holds no segment in AWAIT-HEADER or DISCARDING (R8), pool records for a segment in LANDING alone (R14, R72), and no segment
while the station is RESTARTING (R9). -/
abbrev intakeHoldsOk (c : Chip) : Prop :=
  (c.intake.state = .awaitHeader ∨ c.intake.state = .discarding → c.intake.seg = none) ∧
    (∀ g ∈ c.intake.seg, c.intake.state ≠ .landing → g.extentRes = false ∧ g.pendingRes = false) ∧
    (c.cmd.mode = .restarting → c.intake.seg = none)

/-- The extent records: those in coverage lists, the one the intake may hold, and the free ones number 4096 (R69). -/
abbrev extentsOk (c : Chip) : Prop :=
  ((Table.contexts c.slots).map fun p => p.2.cover.length).sum +
    (match c.intake.seg with | some g => if g.extentRes then 1 else 0 | none => 0) + c.extFree = Config.extentRecords

/-- The pending entries: those of feeder contexts, the one the intake may hold, and the free ones number 256 (R127). -/
abbrev pendingOk (c : Chip) : Prop :=
  ((Table.contexts c.slots).map fun p => match p.2.role with | .feeder f => f.entries.length | .anchor _ => 0).sum +
    (match c.intake.seg with | some g => if g.pendingRes then 1 else 0 | none => 0) + c.pendFree = Config.pendingEntries

/-- Every coverage list has the form of R66, and an anchor's names as many blocks as its accepted count says (R67). -/
abbrev coversOk (c : Chip) : Prop :=
  ∀ p ∈ Table.contexts c.slots, Coverage.ordered p.2.cover = true ∧
    ∀ q ∈ c.anchor? p.1, Coverage.blocks q.1.cover = q.2.accepted

/-- A tally's entries, at most 8, are entries of its context (R132). A RELEASE-WAIT context holds those of its outstanding tally alone, or,
after a MOVED verdict, those of the tally it is due to form at its new anchor station (R145, R150). -/
abbrev talliesOk (c : Chip) : Prop :=
  ∀ p ∈ Table.contexts c.slots, ∀ q ∈ c.feeder? p.1,
    (∀ y ∈ q.2.tally, y.size ≤ Config.tallyEntries ∧ y.size ≤ q.2.entries.length ∧
      (q.2.state = .releaseWait → y.size = q.2.entries.length)) ∧
    (q.2.tally = none → q.2.state = .releaseWait → q.2.moved ≠ none ∧ q.2.entries.length ≤ Config.tallyEntries)

/-- The accounts of the two pools balance. -/
abbrev accountsOk (c : Chip) : Prop :=
  c.tableOk ∧ c.intakeHoldsOk ∧ c.talliesOk ∧ c.coversOk ∧ c.extentsOk ∧ c.pendingOk

/-- The blocks of a context that wait for their fate: provisional blocks, or pending BLOCK entries (R43, R127). -/
def unresolved (ctx : Context) : List BlockItem :=
  match ctx.role with
  | .anchor a => a.provisional
  | .feeder f => itemsOf f.entries

/-- The handles outside the buffer manager that no notice has given to the host (R155): the intake's, the one that waits for the RESTART
gathering, and those of unresolved blocks. -/
def handlesOut (c : Chip) : List Handle :=
  (match c.intake.seg with | some g => g.handle.toList | none => []) ++ c.intake.returning.toList ++
    (Table.contexts c.slots).flatMap fun p => (unresolved p.2).map BlockItem.handle

/-- How many block reservations are held: by the segment in the intake, by the segment RESTART has ended until the gathering (log 25),
and by unresolved blocks (R172). -/
def blocksHeld (c : Chip) : Nat :=
  (match c.intake.seg with | some g => if g.blockRes then 1 else 0 | none => 0) + c.intake.returning.toList.length +
    ((Table.contexts c.slots).map fun p => (unresolved p.2).length).sum

/-- The cache of a class and the entries its refill has still to read fit in 16 places (R157, R160). -/
def cacheFits (p : BufferPool) : Bool :=
  match p.refill with
  | .idle | .consumer _ => p.cache.length ≤ 16
  | .producer n => p.cache.length ≤ n && n ≤ 16
  | .entries r got => got < r && p.cache.length + (r - got) ≤ 16

/-- The intake holds a block reservation and a handle exactly in LANDING (R14, R15), and a handle waits for the gathering in RESTARTING
alone, where the intake holds no segment (R9, R166). -/
abbrev landingOk (c : Chip) : Prop :=
  (∀ g ∈ c.intake.seg, (g.blockRes = true ↔ c.intake.state = .landing) ∧ (g.handle.isSome = true ↔ c.intake.state = .landing)) ∧
    (c.cmd.mode = .restarting → c.intake.seg = none) ∧ (c.cmd.mode ≠ .restarting → c.intake.returning = none)

/-- The notice unit's accounts (R170 to R172): room is never below 0, Re is the number of LIVE contexts, and Rb counts the block
reservations held, at most 192. -/
abbrev noticesOk (c : Chip) : Prop :=
  c.notice.queue.length + c.notice.re + c.notice.rb ≤ Config.noticeRecords ∧
    c.notice.re = (Table.contexts c.slots).length ∧ c.notice.rb = c.blocksHeld ∧ c.notice.rb ≤ Config.blockReservations

/-- The buffer manager's bounds for a class (R154, R157, R163): it holds handles of that class alone, its recycled handles and those outside
together never pass 192, and its cache never passes 16. -/
abbrev poolOk (c : Chip) (cls : BufClass) : Prop :=
  (∀ h ∈ (c.pool cls).cache ++ (c.pool cls).stack, h.cls = cls) ∧
    (c.pool cls).stack.length + (c.handlesOut.filter fun h => h.cls = cls).length ≤ 192 ∧ cacheFits (c.pool cls) = true

/-- Only a CLAIMING anchor has provisional blocks (R42, R43). -/
abbrev provisionalOk (c : Chip) : Prop :=
  ∀ p ∈ Table.contexts c.slots, ∀ q ∈ c.anchor? p.1, q.2.state ≠ .claiming → q.2.provisional = []

/-- The reservations and the handles are within their bounds. -/
abbrev reservationsOk (c : Chip) : Prop :=
  c.tableOk ∧ c.intakeHoldsOk ∧ c.talliesOk ∧ c.landingOk ∧ c.provisionalOk ∧ c.noticesOk ∧ c.poolOk .small ∧ c.poolOk .large

/-- Every handle in the part, in a cache, on a stack or outside the buffer manager (R155). -/
def handlesIn (c : Chip) : List Handle :=
  c.small.cache ++ c.small.stack ++ c.large.cache ++ c.large.stack ++ c.handlesOut

/-- No handle of the part is in two places (R154, R155): no two are the same copy, and none is a copy not yet taken. -/
abbrev handlesOk (c : Chip) : Prop :=
  c.tableOk ∧ (c.handlesIn.map Handle.copy).Nodup ∧ ∀ h ∈ c.handlesIn, h.copy < c.handlesTaken

/-! ## Frames and commands that are taken -/

/-- A frame heard whole that is valid here and of kind `k` (R87, R89). -/
abbrev validHere (c : Chip) (f : HeardFrame) (k : FrameKind) : Prop :=
  c.hearing = true ∧ framed f = true ∧ frameFault c.self f = false ∧ f.kind = k.code

/-- A COMMAND of a row that names the station (R187). -/
abbrev named (c : Chip) (f : HeardFrame) (row : CommandRow) : Prop :=
  c.validHere f .command ∧ commandRow f.body = row ∧ maskNames c.self f.body = true

/-- A COMMAND of a row that names the station and is not a repetition of the one held (R187). -/
abbrev newCommand (c : Chip) (f : HeardFrame) (row : CommandRow) : Prop :=
  c.named f row ∧ c.cmd.memory.map Prod.fst ≠ some (byteAt f.body 1)

/-! ## What an event touches beside its own effect -/

/-- `c` with what hearing a valid frame may change taken from `d` (R87, R100), and the transmit queues. -/
def heardBase (c d : Chip) : Chip :=
  { c with
    link := { c.link with
      receiver := d.link.receiver, mediumIdle := d.link.mediumIdle, settle := d.link.settle, hold := d.link.hold,
      presence := d.link.presence, queues := d.link.queues },
    notice := { c.notice with queue := d.notice.queue, latches := d.notice.latches } }

/-- `c` with what the arbitration of pair slots and the waiters for notice room may change taken from `d` (R131, R173). -/
def settledBase (c d : Chip) : Chip :=
  { c with
    slots := d.slots, nextSeq := d.nextSeq, pair := d.pair, link := { c.link with queues := d.link.queues },
    notice := { c.notice with queue := d.notice.queue, latches := d.notice.latches } }

/-- Slot `j` is `x`, but that a feeder with no tally may have formed one (R131). -/
def slotIs (d : Chip) (j : Nat) (x : Option Slot) : Prop :=
  Table.get j d.slots = x ∨
    ∃ (ctx : Context) (f : Feeder) (y : Tally), f.tally = none ∧ x = some (.live { ctx with role := .feeder f }) ∧
      Table.get j d.slots = some (.live { ctx with role := .feeder { f with tally := some y, moved := none } })

/-- Slot `j` stands as it was, but that a feeder with no tally may have formed one (R131). -/
def slotKept (c d : Chip) (j : Nat) : Prop :=
  d.slotIs j (Table.get j c.slots)

/-- Every slot but `i` stands in that sense. -/
def othersKept (c d : Chip) (i : Nat) : Prop :=
  ∀ j, j ≠ i → c.slotKept d j

/-- The transmit queues and the pair slots of `d` are those of `c`, but for tallies formed meanwhile (R131, R132): class 2 alone has gained
frames at its tail, and a pair slot that has changed was free, is held, and has used one sequence number. -/
def arbitratedOnly (c d : Chip) : Prop :=
  (∀ q : Fin 4, q ≠ 2 → d.link.queues[q] = c.link.queues[q]) ∧ c.link.queues[(2 : Fin 4)] <+: d.link.queues[(2 : Fin 4)] ∧
    ∀ x : Station, (d.pair[x] = c.pair[x] ∧ d.nextSeq[x] = c.nextSeq[x]) ∨
      (c.pair[x] = none ∧ d.pair[x] ≠ none ∧ d.nextSeq[x] = c.nextSeq[x] + 1)

/-- `c` with what both may change taken from `d`. -/
def heardSettledBase (c d : Chip) : Chip :=
  { heardBase c d with slots := d.slots, nextSeq := d.nextSeq, pair := d.pair }

/-- The notices an event queues, apart from STATION notices before and after them (R173, R177). -/
def noticed (c d : Chip) (ns : List Notice) : Prop :=
  ∃ before after : List Latch, d.notice.queue = c.notice.queue ++ before.map .station ++ ns ++ after.map .station

/-- The answer `body` has been offered to class 3, and the other queues stand (R188). -/
def answered (c d : Chip) (body : List Byte) : Prop :=
  (∀ q : Fin 4, q ≠ 3 → d.link.queues[q] = c.link.queues[q]) ∧
    d.link.queues[(3 : Fin 4)] = c.link.queues[(3 : Fin 4)] ++ (if c.hasPlace 3 then [.answer body] else []) ∧
    d.cmd.counters = if c.hasPlace 3 then c.cmd.counters else c.cmd.counters.set 15 (countUp c.cmd.counters[15])

/-- `c` with what the end of an event may change taken from `d`, the intake with it: a waiting intake may be granted (R173). -/
def eventBase (c d : Chip) : Chip :=
  { settledBase c d with intake := d.intake }

/-- `c` with what the end of an object may change besides taken from `d` (R56). -/
def endedBase (c d : Chip) : Chip :=
  { eventBase c d with
    extFree := d.extFree, cache := d.cache, retired := d.retired,
    notice := { c.notice with queue := d.notice.queue, latches := d.notice.latches, re := d.notice.re } }

/-- `c` with counter `n` advanced by one (R21). -/
def counted (c : Chip) (n : Fin 16) : CommandUnit :=
  { c.cmd with counters := c.cmd.counters.set n (countUp c.cmd.counters[n]) }

/-! ## Segments -/

/-- The context is a feeder (R39). -/
def feeds (ctx : Context) : Bool :=
  match ctx.role with
  | .anchor _ => false
  | .feeder _ => true

/-- The context is a feeder in RELEASE-WAIT (R126). -/
def releaseWaits (ctx : Context) : Bool :=
  match ctx.role with
  | .anchor _ => false
  | .feeder f => f.state = .releaseWait

/-- Command `i` brings the intake to step 3 with segment `g`, which holds nothing (R10): the last header byte of a DATA segment that
passes its checks and the filter, the GOOD flag of a CLOSE, or the room a HELD segment waited for (R173). -/
def toLookup (c : Chip) (i : Instr) (g : Segment) : Prop :=
  (∃ b h n, i = .segmentHeader b ∧ c.portReady = true ∧ c.intake.state = .awaitHeader ∧ c.intake.headerBytes.length = 31 ∧
    parseHeader (c.intake.headerBytes ++ [b]) = some h ∧ h.kind = .data ∧
    hostSession c.params.filterMode c.params.filterTags h.tag.session = some n ∧ g = segmentOf h n) ∨
  (∃ w, i = .closeFlag true ∧ c.portReady = true ∧ c.awaitsCloseFlag = true ∧ c.intake.seg = some w ∧
    w.extentRes = false ∧ w.pendingRes = false ∧ w.blockRes = false ∧ w.handle = none ∧ g = { w with flagTaken := true }) ∨
  (∃ w, i = .intakeRoomGranted ∧ c.inReset = false ∧ c.intake.state = .deciding ∧ c.intake.seg = some w ∧ w.granted = true ∧
    w.extentRes = false ∧ w.pendingRes = false ∧ w.blockRes = false ∧ w.handle = none ∧
    g = { w with request := none, granted := false })

/-- Where the rest of a dropped segment goes: a DATA segment's payload is discarded, a CLOSE has been taken whole (R8, R10). -/
def afterDrop (g : Segment) : IntakeState :=
  match g.hdr.kind with
  | .data => .discarding
  | .close => .awaitHeader

/-- Step 5 lets block `g` through at context `ctx` (R13), and the pools have what it needs (R14 steps 1 and 2). -/
def takesBlock (c : Chip) (g : Segment) (ctx : Context) : Bool :=
  !Coverage.holds ctx.cover g.hdr.block && !noExtent ctx.cover g.hdr.block c.extFree c.params.extentCap &&
    (match ctx.role with
      | .anchor a =>
        (a.state ≠ .claiming || a.provisional.length < Config.provisionalBlocks) &&
          (shapeFault ctx.sizeCode ctx.cover a g.hdr.sizeCode g.hdr.block g.hdr.length).isNone
      | .feeder f => f.state = .feeding && g.hdr.sizeCode = ctx.sizeCode && 0 < c.pendFree)

/-- The DATA segment `g` can land at the context of index `i` (R13, R14, R158): its block passes, the notice unit has room for its block
reservation, and `hd` is the handle at hand. -/
abbrev canLand (c : Chip) (g : Segment) (i : Nat) (ctx : Context) (hd : Handle) : Prop :=
  g.hdr.kind = .data ∧ Table.find g.hdr.tag c.slots = some (i, ctx) ∧ c.context? i = some ctx ∧ c.takesBlock g ctx = true ∧
    c.blockRoom = true ∧
    ((c.pool (c.bufferClass g.hdr.sizeCode)).stack ++ (c.pool (c.bufferClass g.hdr.sizeCode)).cache).head? = some hd

/-- A class once step 6 has taken its handle: the top of the stack, or with an empty stack the head of the cache (R158). A refill starts
when the class then needs one, none is in progress, and a ring exists (R159; not in RESTARTING, log 16). -/
def takenPool (c : Chip) (cls : BufClass) : BufferPool :=
  let p := c.pool cls
  let q : BufferPool := if p.stack = [] then { p with cache := p.cache.tail } else { p with stack := p.stack.tail }
  { q with
    refill :=
      if q.cache.length < 4 ∧ q.stack = [] ∧ q.refill = .idle ∧ c.cmd.setup ≠ none ∧ c.cmd.mode ≠ .restarting then
        .producer q.cache.length
      else q.refill }

/-- The segment `g` has entered LANDING with handle `hd` (R14, R15, R29): an extent is reserved when the block needs a new one, a pending
entry at a feeder, a block reservation is held, the handle's class has given it and the other class stands, and the fold unit is clear
but for its first exponent. -/
abbrev landed (c d : Chip) (g : Segment) (i : Nat) (ctx : Context) (hd : Handle) : Prop :=
  d.intake = { c.intake with
      state := .landing, headerBytes := [],
      seg := some { g with
        slot := some i, extentRes := Coverage.place ctx.cover g.hdr.block = .fresh, pendingRes := feeds ctx, blockRes := true,
        handle := some hd, taken := 0, sum := none, request := none, granted := false } } ∧
    d.fold = { c.fold.clear with walk := some (firstExponent g.hdr.block g.hdr.sizeCode) } ∧
    d.extFree = c.extFree - (if Coverage.place ctx.cover g.hdr.block = .fresh then 1 else 0) ∧
    d.pendFree = c.pendFree - (if feeds ctx then 1 else 0) ∧
    d.notice.rb = c.notice.rb + 1 ∧
    d.pool (c.bufferClass g.hdr.sizeCode) = c.takenPool (c.bufferClass g.hdr.sizeCode) ∧
    ∀ cls, cls ≠ c.bufferClass g.hdr.sizeCode → d.pool cls = c.pool cls

/-- `c` with what a landing may change taken from `d`. -/
def landedBase (c d : Chip) : Chip :=
  { eventBase c d with
    fold := d.fold, extFree := d.extFree, pendFree := d.pendFree, small := d.small, large := d.large,
    notice := { c.notice with queue := d.notice.queue, latches := d.notice.latches, rb := d.notice.rb } }

/-- Step 4 creates a context for tag `t` in slot `i`: a feeder of the PRESENT station `x` that the claim cache names, or with no cache
entry and the link SYNCED an anchor (R106). -/
abbrev newTag (c : Chip) (t : Tag) (i : Nat) (x : Option Station) : Prop :=
  Table.find t c.slots = none ∧ c.cmd.mode = .running ∧ c.isRetired t = false ∧ c.cached t = x ∧
    (∀ y ∈ x, c.isPresent y = true) ∧ (x = none → c.link.state = .synced) ∧ Table.lowestFree c.slots = some i

/-- The station once step 4 has created that context (R11, R39, R107, R108): an end/orphan reservation is held, the idle timer runs, and
the CLAIM of an anchor joins class 1, or is owed when class 1 is full. -/
def created (c : Chip) (g : Segment) (i : Nat) (x : Option Station) : Chip :=
  let role : Role :=
    match x with
    | some y => .feeder { state := .feeding, anchor := y, noticed := 0, entries := [], tally := none, moved := none }
    | none =>
      .anchor
        { state := .claiming, accepted := 0, sum := 0, close := none, shortMark := none, lastFront := 0, noticed := 0,
          provisional := [], feeders := 0, feederLost := false, claimOwed := !c.hasPlace 1, claimSent := false,
          settle := .stopped }
  let ctx : Context :=
    { tag := g.hdr.tag, sizeCode := g.hdr.sizeCode, cover := [], localDup := 0, peerDup := 0, refused := 0,
      idle := .running (c.now + c.idleTime), role := role }
  { c with
    slots := Table.put i (.live ctx) c.slots, notice := { c.notice with re := c.notice.re + 1 },
    link := { c.link with
      queues :=
        if x = none ∧ c.hasPlace 1 = true then c.link.queues.set 1 (c.link.queues[(1 : Fin 4)] ++ [.claim g.hdr.tag])
        else c.link.queues } }

/-- Steps 3 and 4 drop a segment whose tag no context holds, on counter `n` (R10, R106, R21): QUIESCED, FAULTED, LATE for a retired tag,
ANCHOR-ABSENT, UNSYNCED, or TABLE-FULL where a context was to be created. -/
def newTagDrop (c : Chip) (t : Tag) (n : Fin 16) : Prop :=
  Table.find t c.slots = none ∧
    ((n = 2 ∧ (c.cmd.mode = .quiesced ∨ c.cmd.mode = .faulted)) ∨
      (c.cmd.mode = .running ∧
        ((n = 3 ∧ c.isRetired t = true) ∨
          (n = 2 ∧ c.isRetired t = false ∧
            ((∃ y, c.cached t = some y ∧ c.isPresent y = false) ∨ (c.cached t = none ∧ c.link.state ≠ .synced) ∨
              Table.lowestFree c.slots = none)))))

/-- Steps 5 and 6 drop DATA segment `g` at context `ctx` on counter `n` (R13 to R15, R21), the first case that applies deciding: a block
that is covered, LOCAL-DUPLICATE; a feeder in RELEASE-WAIT, LATE, or of another size code, MISFIT; a CLAIMING anchor with 8 provisional
blocks, CLAIM-WAIT; a block that passes, with no extent to be had, EXTENT-SHORT, with no pending entry, PENDING-FULL, with no buffer of
its class, NO-BUFFER. A block that fails the close and shape checks ends its object and is not meant. -/
def dataDrop (c : Chip) (g : Segment) (ctx : Context) (n : Fin 16) : Prop :=
  let p := c.pool (c.bufferClass g.hdr.sizeCode)
  let short : Bool := noExtent ctx.cover g.hdr.block c.extFree c.params.extentCap
  let empty : Prop := n = 6 ∧ c.takesBlock g ctx = true ∧ c.blockRoom = true ∧ p.stack = [] ∧ p.cache = []
  if Coverage.holds ctx.cover g.hdr.block = true then n = 4
  else
    match ctx.role with
    | .feeder f =>
      if f.state = .releaseWait then n = 3
      else if g.hdr.sizeCode ≠ ctx.sizeCode then n = 0
      else (n = 5 ∧ (short = true ∨ c.pendFree = 0)) ∨ empty
    | .anchor a =>
      if a.state = .claiming ∧ Config.provisionalBlocks ≤ a.provisional.length then n = 5
      else
        shapeFault ctx.sizeCode ctx.cover a g.hdr.sizeCode g.hdr.block g.hdr.length = none ∧ ((n = 5 ∧ short = true) ∨ empty)

/-- The close of segment `g` is kept by the context of index `i` (R12, R46, R48): recorded by a CLAIMING anchor, or a pending CLOSE entry
of a feeder. The idle timer restarts. -/
def closeKept (c d : Chip) (g : Segment) (i : Nat) (ctx : Context) : Prop :=
  d.slotIs i (some (.live { ctx with
      idle := .running (c.now + c.idleTime),
      role :=
        match ctx.role with
        | .anchor a => .anchor { a with close := some (closeRecord g.hdr.objLength g.hdr.fold g.hdr.sizeCode) }
        | .feeder f =>
          .feeder { f with
            entries := f.entries ++
              [{ body := .close g.hdr.objLength g.hdr.fold g.hdr.sizeCode, joined := c.now }] } })) ∧
    d.pendFree = c.pendFree - (if feeds ctx then 1 else 0)

/-- The fold unit holds the payload bytes `bs` of segment `g`, from byte 0 on: they wait for the table walk, or are folded on top of the
first power of the block (R29 to R31). -/
def foldHolds (c : Chip) (g : Segment) (bs : List Byte) : Prop :=
  c.fold = { c.fold.clear with walk := some (firstExponent g.hdr.block g.hdr.sizeCode), waiting := bs } ∨
    c.fold = bs.foldl (foldByte c.params.weight g.hdr.length)
      { c.fold.clear with power := some (firstPower c.fold.entries (firstExponent g.hdr.block g.hdr.sizeCode)) }

/-- A landed block's segment has been dropped on counter `n` (R17, R18, R162, R172): its handle lies on top of the recycle stack of its
class, and its reservations are released. -/
def recycledDrop (c d : Chip) (g : Segment) (hd : Handle) (n : Fin 16) : Prop :=
  d.intake = { c.intake with state := .awaitHeader, headerBytes := [], seg := none } ∧ d.fold = c.fold.clear ∧
    d.pool hd.cls = { c.pool hd.cls with stack := hd :: (c.pool hd.cls).stack } ∧
    (∀ cls, cls ≠ hd.cls → d.pool cls = c.pool cls) ∧
    d.extFree = c.extFree + (if g.extentRes then 1 else 0) ∧ d.pendFree = c.pendFree + (if g.pendingRes then 1 else 0) ∧
    d.notice.rb = c.notice.rb - (if g.blockRes then 1 else 0) ∧ d.cmd = c.counted n ∧ c.noticed d []

/-- Completion drops segment `g` at context `ctx` on counter 5, SEG-SHORTAGE (R19 to R21): a CLAIMING anchor with 8 provisional blocks,
CLAIM-WAIT; an anchor's block that needs an extent and can have none, EXTENT-SHORT; a FEEDING context with no pending entry to be had,
PENDING-FULL. The segment's own reservations count as free. -/
def completionShort (c : Chip) (g : Segment) (ctx : Context) : Prop :=
  match ctx.role with
  | .feeder f => f.state = .feeding ∧ g.pendingRes = false ∧ c.pendFree = 0
  | .anchor a =>
    shapeFault ctx.sizeCode ctx.cover a g.hdr.sizeCode g.hdr.block g.hdr.length = none ∧
      ((a.state = .claiming ∧ Config.provisionalBlocks ≤ a.provisional.length) ∨
        noExtent ctx.cover g.hdr.block (c.extFree + (if g.extentRes then 1 else 0)) c.params.extentCap = true)

/-- `c` with what a segment dropped at completion on counter `n` gives back (R17, R18, R162, R172). -/
def givenBack (c : Chip) (g : Segment) (hd : Handle) (n : Fin 16) : Chip :=
  let push (cls : BufClass) (p : BufferPool) : BufferPool := if hd.cls = cls then { p with stack := hd :: p.stack } else p
  { c with
    intake := { c.intake with state := .awaitHeader, headerBytes := [], seg := none }, fold := c.fold.clear,
    small := push .small c.small, large := push .large c.large,
    extFree := c.extFree + (if g.extentRes then 1 else 0), pendFree := c.pendFree + (if g.pendingRes then 1 else 0),
    notice := { c.notice with rb := c.notice.rb - (if g.blockRes then 1 else 0) }, cmd := c.counted n }

/-! ## Notices and ends -/

/-- The latched STATION notices `ls` have been queued oldest first for as long as R174 allows, and the rest stay latched (R173, R177). -/
def latchesServed (c d : Chip) (ls : List Latch) : Prop :=
  let room (j : Nat) : Bool :=
    c.modeQueuesStation && c.notice.queue.length + j + c.notice.re + c.notice.rb < Config.noticeRecords &&
      c.unreserved + j < Config.unreservedCeiling
  ∃ k, k ≤ ls.length ∧ (∀ j, j < k → room j = true) ∧ (k < ls.length → room k = false) ∧
    d.notice.queue = c.notice.queue ++ (ls.take k).map .station ∧ d.notice.latches = ls.drop k

/-- The frames of class 1 once the CLAIM for `t` that is queued and not begun has left it (R57, R94). -/
def withoutClaim (c : Chip) (t : Tag) : List Frame :=
  let q := c.link.queues[(1 : Fin 4)]
  q.take (c.onWire 1) ++ (q.drop (c.onWire 1)).erase (.claim t)

/-- The frame on the wire once the CLAIM for `t` is withdrawn: with no such CLAIM queued and not begun, one on the wire keeps the request
(R94). -/
def wireAfter (c : Chip) (t : Tag) : Option Wire :=
  c.link.wire.map fun w =>
    if w.queued = true ∧ w.cls = 1 ∧ w.frame = .claim t ∧ c.withoutClaim t = c.link.queues[(1 : Fin 4)] then { w with withdraw := true }
    else w

/-- No owed frame takes the place that the withdrawn CLAIM for `t` frees: none is owed, or no such CLAIM is queued and not begun (R94,
R124). -/
def noneOwed (c : Chip) (t : Tag) : Prop :=
  Table.firstOwed c.slots = none ∨ c.withoutClaim t = c.link.queues[(1 : Fin 4)]

/-- The front `F` of a list has been tested (R60, R176): below the last value noticed plus the step nothing happens; otherwise, when the
notice unit has unreserved room (R174), a FRONT notice of `F` is queued and the last value noticed is `F`; without room it is skipped,
FRONT-SKIPPED advances and the last value noticed stands. -/
def frontTested (c d : Chip) (tag : Tag) (F lastFront : Nat) (fronts : List Notice) (last : Nat) : Prop :=
  if F < lastFront + c.params.frontStep then fronts = [] ∧ last = lastFront ∧ d.cmd = c.cmd
  else if c.unreservedRoom then fronts = [.front tag F] ∧ last = F ∧ d.cmd = c.cmd
  else fronts = [] ∧ last = lastFront ∧ d.cmd = c.counted 14

/-- The object of the anchor context at `i` has ended with an outcome, from OPEN or CLOSING (R56, R59, R112): OBJECT-END queued in its
reservation, RELEASE queued in class 1 or owed by the slot, tag retired and forgotten, extent records returned. -/
def ended (c d : Chip) (i : Nat) (ctx : Context) (a : Anchor) (o : ObjOutcome) (close : Option (Nat × Nat)) : Prop :=
  c.noticed d [.objectEnd
      { tag := ctx.tag, outcome := o, sizeCode := ctx.sizeCode, accepted := a.accepted, sum := a.sum,
        front := Coverage.front ctx.cover, close := close, localDup := ctx.localDup, peerDup := ctx.peerDup,
        refused := ctx.refused, feeders := a.feeders, feederLost := a.feederLost }] ∧
    d.notice.re = c.notice.re - 1 ∧ d.extFree = c.extFree + ctx.cover.length ∧ ctx.tag ∈ d.retired ∧ d.cached ctx.tag = none ∧
    (if c.hasPlace 1 then
      d.link.queues[(1 : Fin 4)] = c.link.queues[(1 : Fin 4)] ++ [.release ctx.tag o] ∧ Table.get i d.slots = none
    else d.link.queues[(1 : Fin 4)] = c.link.queues[(1 : Fin 4)] ∧ Table.get i d.slots = some (.owing ctx.tag o))

/-- The object of the CLAIMING anchor at `i` has ended with an outcome (R57): its CLAIM is withdrawn, and every provisional block's notice,
naming self, stands in its block reservation, in list order, before the OBJECT-END; the rest is as `ended` says. -/
def claimEnded (c d : Chip) (i : Nat) (ctx : Context) (a : Anchor) (o : ObjOutcome) (close : Option (Nat × Nat)) : Prop :=
  c.noticed d (a.provisional.map (.block ctx.tag c.self) ++ [.objectEnd
      { tag := ctx.tag, outcome := o, sizeCode := ctx.sizeCode, accepted := a.accepted, sum := a.sum,
        front := Coverage.front ctx.cover, close := close, localDup := ctx.localDup, peerDup := ctx.peerDup,
        refused := ctx.refused, feeders := a.feeders, feederLost := a.feederLost }]) ∧
    d.notice.re = c.notice.re - 1 ∧ d.notice.rb = c.notice.rb - a.provisional.length ∧
    d.extFree = c.extFree + ctx.cover.length ∧ ctx.tag ∈ d.retired ∧ d.cached ctx.tag = none ∧
    d.link.wire = c.wireAfter ctx.tag ∧
    (if (c.withoutClaim ctx.tag).length < 32 then
      d.link.queues[(1 : Fin 4)] = c.withoutClaim ctx.tag ++ [.release ctx.tag o] ∧ Table.get i d.slots = none
    else d.link.queues[(1 : Fin 4)] = c.withoutClaim ctx.tag ∧ Table.get i d.slots = some (.owing ctx.tag o))

/-- `c` with what such an end may change taken from `d`. -/
def claimEndedBase (c d : Chip) : Chip :=
  { endedBase c d with
    link := { c.link with queues := d.link.queues, wire := d.link.wire },
    notice := { c.notice with queue := d.notice.queue, latches := d.notice.latches, re := d.notice.re, rb := d.notice.rb } }

/-- An entry of a tally has ended the object at `i` (R53, R139): the object ends, and nothing else of the station changes. -/
def endedInTally (c d : Chip) (i : Nat) (ctx : Context) (a : Anchor) (o : ObjOutcome) (close : Option (Nat × Nat)) : Prop :=
  c.ended d i ctx a o close ∧ (∀ j, j ≠ i → Table.get j d.slots = Table.get j c.slots) ∧
    (∀ q : Fin 4, q ≠ 1 → d.link.queues[q] = c.link.queues[q]) ∧
    d = { c with
      slots := d.slots, extFree := d.extFree, cache := d.cache, retired := d.retired,
      link := { c.link with queues := d.link.queues },
      notice := { c.notice with queue := d.notice.queue, re := d.notice.re } }

/-- What follows an entry that the anchor at `i` has accepted, its context then `ctx` and `a` (R44, R46, R54): in CLOSING with the coverage
complete the object ends VERIFIED or MISMATCH; otherwise the front is tested. -/
def completedOrTested (c d : Chip) (i : Nat) (ctx : Context) (a : Anchor) : Prop :=
  let front := Coverage.front ctx.cover
  let tested : Prop :=
    d = if front < a.lastFront + c.params.frontStep then c
      else if c.unreservedRoom then
        { c with
          slots := Table.put i (.live { ctx with role := .anchor { a with lastFront := front } }) c.slots,
          notice := { c.notice with queue := c.notice.queue ++ [.front ctx.tag front] } }
      else { c with cmd := c.counted 14 }
  match a.close with
  | some r =>
    if a.state = .closing ∧ Coverage.whole ctx.cover r.blocks = true then
      c.endedInTally d i ctx a (if a.sum = r.fold then .verified else .mismatch) (some (r.length, r.fold))
    else tested
  | none => tested

/-- The handles of landed blocks have been pushed on the recycle stacks of their classes in their order (R162). -/
def recycled (c d : Chip) (bs : List BlockItem) : Prop :=
  ∀ cls, d.pool cls = { c.pool cls with
    stack := ((bs.map BlockItem.handle).filter fun h => h.cls = cls).reverse ++ (c.pool cls).stack }

end Chip

end Sys2Proof.Machine
end

