-- ==== Sys2Proof/Certificates/Slice0/Obligations.lean ====
section
/-! DEFINITION. The statements about the model for the provers. `s` is the state before a command, `t` the state after it. A frame is
written as an equation: `t` is `s` with the named parts taken from `t`. -/

open Sys2Proof Sys2Proof.Machine

/-! ## The machine as a whole -/

/-- A step with command `i` in front of the queue is exec of `i` on the state with the queue's rest; with no command waiting the
block idles and the model's clock counts one microsecond (the model's choice, log 2). It follows the model's reading in log 2.
-/
def Obligations.StepRunsFrontCommand : Prop :=
  (∀ (s : State) (i : Instr) (rest : List Instr), s.pending = i :: rest → step s = exec i { s with pending := rest }) ∧
    ∀ s : State, s.pending = [] → step s = .next { s with chip := { s.chip with now := s.chip.now + 1 } }

/-- No command stops the machine, and none touches the queue of waiting commands. While the RESET pin is asserted, a command
other than PIN_RESET and PIN_RESET_RELEASE changes nothing. It follows the model's reading in logs 1 and 5. -/
def Obligations.CommandsNeverStop : Prop :=
  (∀ (i : Instr) (s : State), ∃ t, exec i s = .next t ∧ t.pending = s.pending) ∧
  (∀ (i : Instr) (s : State), s.chip.inReset = true → i ≠ .pinReset → (∀ straps, i ≠ .pinResetRelease straps) →
    exec i s = .next s)

/-- The reset state satisfies the invariants: the canonical form of host memory, the heard collections, the queues, the table,
the counts, the pool accounts, the reservations, the handles, the FAULT pin, no feeder. It follows the model's reading in log 5.
-/
def Obligations.ResetKeepsInvariants : Prop :=
  Memory.wf State.reset.mem = true ∧ State.reset.chip.heardOk ∧ State.reset.chip.queuesOk ∧ State.reset.chip.tableOk ∧
    State.reset.chip.countsOk ∧ State.reset.chip.accountsOk ∧ State.reset.chip.reservationsOk ∧ State.reset.chip.handlesOk ∧
    State.reset.chip.faultPinOk ∧ State.reset.chip.feeders = []

/-- Every step keeps the canonical form of what the part has written to host memory: addresses strictly rising. -/
def Obligations.StepKeepsMemoryForm : Prop :=
  ∀ s t : State, Memory.wf s.mem = true → step s = .next t → Memory.wf t.mem = true

/-- Every step keeps the form of the claim cache and the retired list. -/
def Obligations.StepKeepsHeardForm : Prop :=
  ∀ s t : State, s.chip.heardOk → step s = .next t → t.chip.heardOk

/-- Every step keeps every transmit queue within its depth. Every step keeps the counts that stay at 65535: the station
counters, the missed-beacon counts and the latch counts. -/
def Obligations.StepKeepsQueuesAndCounts : Prop :=
  (∀ s t : State, s.chip.queuesOk → step s = .next t → t.chip.queuesOk) ∧
  (∀ s t : State, s.chip.countsOk → step s = .next t → t.chip.countsOk)

/-- Every step keeps the form of the object table: slots listed by rising index below 256, and at most one context for any tag.
-/
def Obligations.StepKeepsTableForm : Prop :=
  ∀ s t : State, s.chip.tableOk → step s = .next t → t.chip.tableOk

/-- After reset and after every step the accounts of the two pools balance: extent records and pending entries number 4096 and
256 at all times, each in a list or a context, reserved by the intake, or free. Every coverage list keeps the first three
conditions of R66 (ascending, apart, none empty; the extent cap, its fourth, is left out), an anchor's blocks number its
accepted count, and a tally's entries are entries of its context. -/
def Obligations.StepKeepsPoolAccounts : Prop :=
  State.reset.chip.accountsOk ∧ ∀ s t : State, s.chip.accountsOk → step s = .next t → t.chip.accountsOk

/-- Every step keeps the reservations within their bounds, the intake holding no segment in AWAIT-HEADER and DISCARDING, and a
RELEASE-WAIT context no entry but its tally's (R8, R122): the queued records with Re and Rb never pass 512, Re is the number of
LIVE contexts, Rb counts the block reservations held by the intake, by the segment a RESTART has ended until its gathering (log
25), by provisional blocks, which only a CLAIMING anchor has, and by pending BLOCK entries, at most 192; for each class the
buffer manager holds handles of that class alone, the recycle stack and the handles outside it that no notice has given to the
host never pass 192 together, and the cache, with what its refill has still to read, never passes 16. Every step keeps every
handle of the part in one place alone, two copies of one handle taken from a ring being two handles. It follows the model's
reading in logs 25 and 42. -/
def Obligations.StepKeepsReservationsAndHandles : Prop :=
  (∀ s t : State, s.chip.reservationsOk → step s = .next t → t.chip.reservationsOk) ∧
    ∀ s t : State, s.chip.handlesOk → step s = .next t → t.chip.handlesOk

/-- Every step keeps the FAULT pin asserted exactly while the station is FAULTED or strapped to 0; a station strapped to 0 stays
in SEEKING, takes no frame and begins none. It follows the model's reading in log 5. -/
def Obligations.StepKeepsFaultPin : Prop :=
  ∀ s t : State, s.chip.faultPinOk → step s = .next t → t.chip.faultPinOk

/-- A FAULTED station holds no feeder context: every step keeps this, with the form of the table. -/
def Obligations.FaultedStationFeedsNothing : Prop :=
  ∀ s t : State, s.chip.tableOk → (s.chip.cmd.mode = .faulted → s.chip.feeders = []) → step s = .next t →
    t.chip.cmd.mode = .faulted → t.chip.feeders = []

/-- The station mode moves only at the events of the mode table, from and to the modes it gives. -/
def Obligations.StationModeMoves : Prop :=
  ∀ (i : Instr) (s t : State), exec i s = .next t → t.chip.cmd.mode ≠ s.chip.cmd.mode →
    (i = .pinReset ∧ t.chip.cmd.mode = .waitingSetup) ∨
    (i = .powerTableReady ∧ s.chip.fold.table = .building ∧ s.chip.cmd.mode = .waitingSetup ∧ t.chip.cmd.mode = .running) ∨
    ((∃ f, i = .quiesce f) ∧ s.chip.cmd.mode = .running ∧ t.chip.cmd.mode = .quiesced) ∨
    ((∃ f, i = .resume f) ∧ s.chip.cmd.mode = .quiesced ∧ t.chip.cmd.mode = .running) ∨
    (i = .collision ∧ s.chip.link.strike = true ∧ s.chip.cmd.mode ≠ .restarting ∧ t.chip.cmd.mode = .faulted) ∨
    ((∃ f, i = .restart f) ∧ s.chip.fold.table ≠ .building ∧ t.chip.cmd.mode = .restarting) ∨
    (i = .restartGather ∧ s.chip.cmd.mode = .restarting ∧
      t.chip.cmd.mode =
        if s.chip.cmd.faultAtEnd then .faulted else if s.chip.cmd.setup.isSome then .running else .waitingSetup)

/-- The power table and the accepted setup change only at pin reset, at an accepted GO, and, for the table, at the end of its
build. It follows the model's reading in log 27. -/
def Obligations.PowerTableMoves : Prop :=
  ∀ (i : Instr) (s t : State), exec i s = .next t →
    t.chip.fold.table ≠ s.chip.fold.table ∨ t.chip.fold.entries ≠ s.chip.fold.entries ∨
      t.chip.cmd.setup ≠ s.chip.cmd.setup →
    (i = .pinReset ∧ t.chip.fold.table = .empty ∧ t.chip.cmd.setup = none) ∨
    ((∃ f, i = .go f) ∧ s.chip.cmd.mode = .waitingSetup ∧ s.chip.fold.table ≠ .building ∧ t.chip.fold.table = .building ∧
      t.chip.cmd.setup ≠ none) ∨
    (i = .powerTableReady ∧ s.chip.fold.table = .building ∧ t.chip.fold.table = .ready ∧ t.chip.cmd.setup = s.chip.cmd.setup)

/-! ## Pins -/

/-- PIN_RESET from every state: every part of the station has its value after pin reset, and host memory is unchanged outside
the record and the consumer words whose writes are abandoned. The clock goes on (the model's, log 2), and the free counter
advances (log 7). PIN_RESET_RELEASE: the straps give the station number, strap 0 asserts the FAULT pin, and nothing else
changes. It follows the model's reading in logs 2, 4, 5, 7, 8, 41 and 42. -/
def Obligations.PinResetAndReleaseStartStation : Prop :=
  (∀ s : State, ∃ t, exec .pinReset s = .next t ∧
    t.chip = { Chip.reset with now := s.chip.now, freeIndex := s.chip.freeIndex + 1 } ∧
    t.chip.cmd.mode = .waitingSetup ∧ t.chip.cmd.setup = none ∧ t.chip.cmd.memory = none ∧
    t.chip.cmd.counters = Vector.replicate 16 0 ∧ t.chip.cmd.staging = Vector.replicate 4 none ∧
    t.chip.fold.table = .empty ∧ t.chip.link.state = .seeking ∧ t.chip.intake.state = .awaitHeader ∧ t.chip.slots = [] ∧
    t.chip.notice.queue = [] ∧ t.chip.small.cache = [] ∧ t.chip.small.stack = [] ∧ t.chip.large.cache = [] ∧
    t.chip.large.stack = [] ∧ t.pending = s.pending ∧
    ∀ a : Nat,
      (∀ w, s.chip.notice.writing = some w → a ∉ span s.chip.recordAddr (s.chip.recordBytes w.notice).length) →
      (∀ cls r, (s.chip.pool cls).refill = .consumer r → a ∉ span (s.chip.ring cls).consumer 4) →
        Memory.read a t.mem = Memory.read a s.mem) ∧
  (∀ (s : State) (straps : Station), s.chip.inReset = true →
    exec (.pinResetRelease straps) s = .next { s with
      chip := { s.chip with inReset := false, self := straps, cmd := { s.chip.cmd with faultPin := straps = 0 } } })

/-! ## Segment port -/

/-- HEADER_BYTE at a ready port in AWAIT-HEADER with fewer than 31 header bytes: the byte joins the header, nothing else
changes. DISCARD_BYTE changes nothing; DISCARD_FLAG in DISCARDING at a ready port ends the unit, whatever its value. CLOSE_FLAG
with a BAD flag and CLOSE_PAYLOAD_BYTE: the CLOSE that waits for its flag is dropped WIRE; the flag ends the unit, and a payload
byte leaves its rest to be discarded. A CLOSE that waits holds no reservation and no handle. It follows the model's reading in
log 33. -/
def Obligations.PortBytesAreTaken : Prop :=
  (∀ (s : State) (b : Byte), s.chip.portReady = true → s.chip.intake.state = .awaitHeader →
    s.chip.intake.headerBytes.length < 31 →
    exec (.headerByte b) s = .next { s with
      chip := { s.chip with intake := { s.chip.intake with headerBytes := s.chip.intake.headerBytes ++ [b] } } }) ∧
  (∀ (s : State) (b : Byte) (good : Bool), exec (.discardByte b) s = .next s ∧
    (s.chip.portReady = true → s.chip.intake.state = .discarding →
      exec (.discardFlag good) s = .next { s with
        chip := { s.chip with intake := { s.chip.intake with state := .awaitHeader, headerBytes := [], seg := none } } })) ∧
  (∀ (s : State) (g : Segment) (b : Byte), s.chip.portReady = true → s.chip.awaitsCloseFlag = true →
    s.chip.intake.seg = some g → g.extentRes = false → g.pendingRes = false → g.blockRes = false → g.handle = none →
    let drop (st : IntakeState) : State :=
      { s with
        chip := { s.chip with
          intake := { s.chip.intake with state := st, headerBytes := [], seg := none },
          cmd := { s.chip.cmd with counters := s.chip.cmd.counters.set 7 (countUp s.chip.cmd.counters[(7 : Fin 16)]) } } }
    exec (.closeFlag false) s = .next (drop .awaitHeader) ∧ exec (.closePayloadByte b) s = .next (drop .discarding))

/-- SEGMENT_HEADER, before the lookup: a header that fails its checks is dropped HEADER, one the filter does not admit is
dropped NOT-ADMITTED, and a CLOSE waits in DECIDING for its flag; nothing else changes. It follows the model's reading in log
33. -/
def Obligations.HeaderIsJudged : Prop :=
  ∀ (s : State) (b : Byte), s.chip.portReady = true → s.chip.intake.state = .awaitHeader →
    s.chip.intake.headerBytes.length = 31 →
    let drop (n : Fin 16) : State :=
      { s with
        chip := { s.chip with
          intake := { s.chip.intake with state := .discarding, headerBytes := [], seg := none },
          cmd := { s.chip.cmd with counters := s.chip.cmd.counters.set n (countUp s.chip.cmd.counters[n]) } } }
    match parseHeader (s.chip.intake.headerBytes ++ [b]) with
    | none => exec (.segmentHeader b) s = .next (drop 0)
    | some h =>
      match hostSession s.chip.params.filterMode s.chip.params.filterTags h.tag.session with
      | none => exec (.segmentHeader b) s = .next (drop 1)
      | some n =>
        h.kind = .close →
          exec (.segmentHeader b) s = .next { s with
            chip := { s.chip with
              intake := { s.chip.intake with state := .deciding, headerBytes := [], seg := some (Chip.segmentOf h n) } } }

/-- The filter in open mode: an accepted setup lists at most 16 excluded session tags, and an empty list admits every session; a
header whose session tag is in the list is dropped NOT-ADMITTED, and the intake enters DISCARDING; every other header is
admitted, with host session number 255, and no NOT-ADMITTED drop is counted. -/
def Obligations.OpenFilterAdmitsUnlisted : Prop :=
  (∀ p0 p1 p2 p3 : List Byte, setupFault p0 p1 p2 p3 = none → (setupOf p0 p1 p2 p3).filterTags.length ≤ 16) ∧
  (∀ session : BitVec 32, hostSession .opened [] session = some 255) ∧
  ∀ (s : State) (b : Byte) (h : SegHeader), s.chip.portReady = true → s.chip.intake.state = .awaitHeader →
    s.chip.intake.headerBytes.length = 31 → parseHeader (s.chip.intake.headerBytes ++ [b]) = some h →
    s.chip.params.filterMode = .opened →
    ∃ t, exec (.segmentHeader b) s = .next t ∧
      (h.tag.session ∈ s.chip.params.filterTags →
        t = { s with
          chip := { s.chip with
            intake := { s.chip.intake with state := .discarding, headerBytes := [], seg := none },
            cmd := { s.chip.cmd with
              counters := s.chip.cmd.counters.set 1 (countUp s.chip.cmd.counters[(1 : Fin 16)]) } } }) ∧
      (h.tag.session ∉ s.chip.params.filterTags →
        t.chip.cmd.counters[(1 : Fin 16)] = s.chip.cmd.counters[(1 : Fin 16)] ∧
        (h.kind = .close → t.chip.intake.seg = some (Chip.segmentOf h 255)) ∧
        ∀ g, t.chip.intake.seg = some g → g.session = 255 ∧ g.hdr = h)

/-- The close and shape checks of a block at an anchor with its own size code: with a close recorded, a block number of N or
above is OVERRUN, whatever the length, a block below N - 1 passes with length B alone and block N - 1 with length F alone; a
length above B is SHAPE with or without a close. SEGMENT_HEADER of such a block at an OPEN or CLOSING anchor ends the object
with that outcome, and the segment is dropped OBJECT-ENDED. At a CLAIMING anchor the CLAIM is withdrawn and the provisional
blocks are noticed first. It follows the model's reading in logs 11, 12 and 33. -/
def Obligations.MisshapenBlockEndsObject : Prop :=
  ((∀ (c : Nat) (cover : List Extent) (a : Anchor) (r : CloseRec) (k n : Nat), a.close = some r →
    shapeFault c cover a c k n =
      if r.blocks ≤ k then some .overrun
      else if blockSize c < n ∨ (k + 1 < r.blocks ∧ n < blockSize c) ∨ (k + 1 = r.blocks ∧ r.final ≠ some n) then some .shape
      else none) ∧
  (∀ (c : Nat) (cover : List Extent) (a : Anchor) (k n : Nat), a.close = none → blockSize c < n →
    shapeFault c cover a c k n = some .shape) ∧
  ∀ (s : State) (b : Byte) (h : SegHeader) (n i : Nat) (ctx : Context) (a : Anchor) (o : ObjOutcome),
    s.chip.portReady = true → s.chip.intake.state = .awaitHeader → s.chip.intake.headerBytes.length = 31 →
    parseHeader (s.chip.intake.headerBytes ++ [b]) = some h → h.kind = .data →
    hostSession s.chip.params.filterMode s.chip.params.filterTags h.tag.session = some n →
    Table.find h.tag s.chip.slots = some (i, ctx) → s.chip.anchor? i = some (ctx, a) → s.chip.tableOk → a.state ≠ .claiming →
    Coverage.holds ctx.cover h.block = false → shapeFault ctx.sizeCode ctx.cover a h.sizeCode h.block h.length = some o →
    ∃ t, exec (.segmentHeader b) s = .next t ∧
      s.chip.ended t.chip i ctx a o (a.close.map fun r => (r.length, r.fold)) ∧ s.chip.othersKept t.chip i ∧
      t = { s with
        chip := { Chip.settledBase s.chip t.chip with
          intake := { s.chip.intake with state := .discarding, headerBytes := [], seg := none },
          cmd := { s.chip.cmd with
            counters := s.chip.cmd.counters.set 3 (countUp s.chip.cmd.counters[(3 : Fin 16)]) },
          extFree := t.chip.extFree, cache := t.chip.cache, retired := t.chip.retired,
          notice := { s.chip.notice with queue := t.chip.notice.queue, latches := t.chip.notice.latches, re := t.chip.notice.re } } }) ∧
  ∀ (s : State) (cmd : Instr) (g : Segment) (i : Nat) (ctx : Context) (a : Anchor) (o : ObjOutcome),
    s.chip.toLookup cmd g → g.hdr.kind = .data → Table.find g.hdr.tag s.chip.slots = some (i, ctx) →
    s.chip.anchor? i = some (ctx, a) → s.chip.tableOk → a.state = .claiming → a.provisional.length < Config.provisionalBlocks →
    Coverage.holds ctx.cover g.hdr.block = false →
    shapeFault ctx.sizeCode ctx.cover a g.hdr.sizeCode g.hdr.block g.hdr.length = some o → s.chip.noneOwed ctx.tag →
    ∃ t, exec cmd s = .next t ∧
      s.chip.claimEnded t.chip i ctx a o (a.close.map fun r => (r.length, r.fold)) ∧ s.chip.othersKept t.chip i ∧
      t.chip.intake = { s.chip.intake with state := .discarding, headerBytes := [], seg := none } ∧
      t = { s with chip := { Chip.claimEndedBase s.chip t.chip with cmd := s.chip.counted 3 } }

/-- SEGMENT_HEADER of a DATA segment for a context that takes its block, an anchor or a FEEDING one: the segment enters LANDING
with its reservations and the handle at hand, whose class may start a refill; every other context, pool and collection is
unchanged, but that the arbitration of pair slots may form tallies, which join class 2 alone. INTAKE_ROOM_GRANTED: a DATA
segment whose request has been granted resumes at step 3 and lands as at its header. A DATA segment that no block reservation
can be granted enters HELD with its header, whichever command brought it to step 3, and keeps no reservation. One that steps 5
and 6 drop is counted and discarded, a covered block also at its context; a NO-BUFFER drop may start a refill. It follows the
model's reading in logs 11, 16 and 33. -/
def Obligations.DataSegmentLands : Prop :=
  (∀ (s : State) (b : Byte) (h : SegHeader) (n i : Nat) (ctx : Context) (hd : Handle),
    s.chip.portReady = true → s.chip.intake.state = .awaitHeader → s.chip.intake.headerBytes.length = 31 →
    parseHeader (s.chip.intake.headerBytes ++ [b]) = some h →
    hostSession s.chip.params.filterMode s.chip.params.filterTags h.tag.session = some n →
    s.chip.canLand (Chip.segmentOf h n) i ctx hd → s.chip.tableOk →
    ∃ t, exec (.segmentHeader b) s = .next t ∧ s.chip.landed t.chip (Chip.segmentOf h n) i ctx hd ∧
      s.chip.noticed t.chip [] ∧ s.chip.arbitratedOnly t.chip ∧ (∀ j, s.chip.slotKept t.chip j) ∧
      t = { s with chip := Chip.landedBase s.chip t.chip }) ∧
  (((∀ (s : State) (g : Segment) (i : Nat) (ctx : Context) (hd : Handle),
    s.chip.inReset = false → s.chip.intake.state = .deciding → s.chip.intake.seg = some g → g.granted = true →
    g.extentRes = false → g.pendingRes = false → g.blockRes = false → s.chip.canLand g i ctx hd →
    s.chip.tableOk →
    ∃ t, exec .intakeRoomGranted s = .next t ∧ s.chip.landed t.chip g i ctx hd ∧
      s.chip.noticed t.chip [] ∧ s.chip.arbitratedOnly t.chip ∧ (∀ j, s.chip.slotKept t.chip j) ∧
      t = { s with chip := Chip.landedBase s.chip t.chip }) ∧
  (∀ (s : State) (cmd : Instr) (g : Segment) (i : Nat) (ctx : Context), s.chip.toLookup cmd g → g.hdr.kind = .data →
    Table.find g.hdr.tag s.chip.slots = some (i, ctx) → s.chip.context? i = some ctx → s.chip.takesBlock g ctx = true →
    s.chip.blockRoom = false → s.chip.tableOk →
    ∃ t, exec cmd s = .next t ∧
      t.chip.intake = { s.chip.intake with
        state := .held, headerBytes := [], seg := some { g with slot := some i, request := some .block, granted := false } } ∧
      s.chip.noticed t.chip [] ∧ s.chip.arbitratedOnly t.chip ∧ (∀ j, s.chip.slotKept t.chip j) ∧
      t = { s with chip := Chip.eventBase s.chip t.chip })) ∧
  (∀ (s : State) (cmd : Instr) (g : Segment) (i : Nat) (ctx : Context) (n : Fin 16), s.chip.toLookup cmd g → g.hdr.kind = .data →
    Table.find g.hdr.tag s.chip.slots = some (i, ctx) → s.chip.context? i = some ctx → s.chip.tableOk → s.chip.dataDrop g ctx n →
    ∃ t, exec cmd s = .next t ∧
      t.chip.intake = { s.chip.intake with state := .discarding, headerBytes := [], seg := none } ∧
      t.chip.slotIs i (some (.live (if n = 4 then { ctx with localDup := countUp ctx.localDup } else ctx))) ∧
      s.chip.othersKept t.chip i ∧ s.chip.noticed t.chip [] ∧ s.chip.arbitratedOnly t.chip ∧
      (∀ cls, t.chip.pool cls =
        if n = 6 ∧ cls = s.chip.bufferClass g.hdr.sizeCode then s.chip.takenPool cls else s.chip.pool cls) ∧
      t = { s with
        chip := { Chip.eventBase s.chip t.chip with cmd := s.chip.counted n, small := t.chip.small, large := t.chip.large } }))

/-- A segment whose tag no context holds, at its header, its CLOSE flag or the grant of its request. With a PRESENT station X in
the claim cache a FEEDING context anchored at X is created, and with no entry and the link SYNCED a CLAIMING one, whose CLAIM
joins class 1 or is owed: in the FREE slot of lowest index, with an end/orphan reservation and its idle timer running. A DATA
segment that it takes then lands, waits HELD for its block reservation, or is dropped EXTENT-SHORT, PENDING-FULL or NO-BUFFER,
the context remaining, and a CLOSE is recorded, becomes a pending entry, or is dropped PENDING-FULL. A retired tag is dropped
LATE, an ABSENT X ANCHOR-ABSENT, no sync UNSYNCED, no FREE slot TABLE-FULL, and QUIESCED and FAULTED drop it too, each on its
counter with nothing created. With no room for the reservation the intake enters HELD with nothing created. Tallies that the
arbitration of pair slots may form join class 2 alone. It follows the model's reading in logs 11, 16 and 33. -/
def Obligations.NewTagCreatesContext : Prop :=
  (∀ (s : State) (cmd : Instr) (g : Segment) (i : Nat) (x : Option Station) (ctx : Context) (hd : Handle),
    s.chip.toLookup cmd g → s.chip.newTag g.hdr.tag i x → s.chip.hasRoom = true →
    let mid := s.chip.created g i x
    mid.canLand g i ctx hd → s.chip.tableOk →
    ∃ t, exec cmd s = .next t ∧ mid.landed t.chip g i ctx hd ∧ mid.noticed t.chip [] ∧ mid.arbitratedOnly t.chip ∧
    (∀ j, mid.slotKept t.chip j) ∧
      t = { s with chip := Chip.landedBase mid t.chip }) ∧
  (∀ (s : State) (cmd : Instr) (g : Segment) (i : Nat) (x : Option Station) (ctx : Context),
    s.chip.toLookup cmd g → g.hdr.kind = .close → s.chip.newTag g.hdr.tag i x → s.chip.hasRoom = true →
    let mid := s.chip.created g i x
    mid.context? i = some ctx → (x ≠ none → 0 < s.chip.pendFree) → s.chip.tableOk →
    ∃ t, exec cmd s = .next t ∧ mid.closeKept t.chip g i ctx ∧ mid.noticed t.chip [] ∧ mid.arbitratedOnly t.chip ∧
    mid.othersKept t.chip i ∧
      t.chip.intake = { s.chip.intake with state := .awaitHeader, headerBytes := [], seg := none } ∧
      t = { s with chip := { Chip.eventBase mid t.chip with pendFree := t.chip.pendFree } }) ∧
  (∀ (s : State) (cmd : Instr) (g : Segment) (n : Fin 16), s.chip.toLookup cmd g → s.chip.newTagDrop g.hdr.tag n →
    s.chip.tableOk →
    ∃ t, exec cmd s = .next t ∧
      t.chip.intake = { s.chip.intake with state := Chip.afterDrop g, headerBytes := [], seg := none } ∧
      s.chip.noticed t.chip [] ∧ s.chip.arbitratedOnly t.chip ∧ (∀ j, s.chip.slotKept t.chip j) ∧
      t = { s with chip := { Chip.eventBase s.chip t.chip with cmd := s.chip.counted n } }) ∧
  (∀ (s : State) (cmd : Instr) (g : Segment) (i : Nat) (x : Option Station), s.chip.toLookup cmd g →
    s.chip.newTag g.hdr.tag i x → s.chip.hasRoom = false → s.chip.tableOk →
    ∃ t, exec cmd s = .next t ∧
      t.chip.intake = { s.chip.intake with
        state := .held, headerBytes := [], seg := some { g with request := some .endOrphan, granted := false } } ∧
      s.chip.noticed t.chip [] ∧ s.chip.arbitratedOnly t.chip ∧ (∀ j, s.chip.slotKept t.chip j) ∧
      t = { s with chip := Chip.eventBase s.chip t.chip }) ∧
  (∀ (s : State) (cmd : Instr) (g : Segment) (i : Nat) (x : Option Station) (ctx : Context), s.chip.toLookup cmd g →
    s.chip.newTag g.hdr.tag i x → s.chip.hasRoom = true → s.chip.tableOk →
    let mid := s.chip.created g i x
    mid.context? i = some ctx →
    (g.hdr.kind = .data → mid.takesBlock g ctx = true → mid.blockRoom = false →
      ∃ t, exec cmd s = .next t ∧
        t.chip.intake = { s.chip.intake with
          state := .held, headerBytes := [], seg := some { g with slot := some i, request := some .block, granted := false } } ∧
        mid.noticed t.chip [] ∧ mid.arbitratedOnly t.chip ∧ (∀ j, mid.slotKept t.chip j) ∧
        t = { s with chip := Chip.eventBase mid t.chip }) ∧
    (∀ n : Fin 16, g.hdr.kind = .data → mid.dataDrop g ctx n →
      ∃ t, exec cmd s = .next t ∧
        t.chip.intake = { s.chip.intake with state := .discarding, headerBytes := [], seg := none } ∧
        mid.noticed t.chip [] ∧ mid.arbitratedOnly t.chip ∧ (∀ j, mid.slotKept t.chip j) ∧
        (∀ cls, t.chip.pool cls =
          if n = 6 ∧ cls = s.chip.bufferClass g.hdr.sizeCode then mid.takenPool cls else s.chip.pool cls) ∧
        t = { s with
          chip := { Chip.eventBase mid t.chip with cmd := s.chip.counted n, small := t.chip.small, large := t.chip.large } }) ∧
    (g.hdr.kind = .close → x ≠ none → s.chip.pendFree = 0 →
      ∃ t, exec cmd s = .next t ∧
        t.chip.intake = { s.chip.intake with state := .awaitHeader, headerBytes := [], seg := none } ∧
        mid.noticed t.chip [] ∧ mid.arbitratedOnly t.chip ∧ (∀ j, mid.slotKept t.chip j) ∧
        t = { s with chip := { Chip.eventBase mid t.chip with cmd := s.chip.counted 5 } }))

/-- CLOSE_FLAG with a GOOD flag at an OPEN anchor whose coverage is complete: the object ends VERIFIED when its sum equals E and
MISMATCH otherwise. A CLOSE at step 5, at its GOOD flag or the grant of its request. At an anchor with no close recorded, a
close that passes its checks is recorded: a CLAIMING context stays so, and an OPEN one whose coverage is not complete becomes
CLOSING and tests its front; one that fails a check ends an OPEN or CLOSING object with that outcome. At an anchor with a close
recorded, an equal one counts as a local duplicate and any other ends an OPEN or CLOSING object CLOSE-CONFLICT with the recorded
close. A CLAIMING object ends so too, its CLAIM withdrawn and its provisional blocks noticed first. At a FEEDING context it
becomes a pending CLOSE entry, or with no free entry is dropped PENDING-FULL; at a RELEASE-WAIT context it is dropped LATE. It
follows the model's reading in logs 11 and 12. -/
def Obligations.CloseCompletesObject : Prop :=
  (∀ (s : State) (g : Segment) (i : Nat) (ctx : Context) (a : Anchor), s.chip.portReady = true →
    s.chip.awaitsCloseFlag = true → s.chip.intake.seg = some g → Table.find g.hdr.tag s.chip.slots = some (i, ctx) →
    s.chip.anchor? i = some (ctx, a) → s.chip.tableOk → a.state = .opened → a.close = none →
    closeFault ctx.sizeCode ctx.cover a g.hdr.sizeCode (closeRecord g.hdr.objLength g.hdr.fold g.hdr.sizeCode) = none →
    Coverage.whole ctx.cover (closeRecord g.hdr.objLength g.hdr.fold g.hdr.sizeCode).blocks = true →
    ∃ t, exec (.closeFlag true) s = .next t ∧
      s.chip.ended t.chip i ctx a (if a.sum = g.hdr.fold then .verified else .mismatch)
        (some (g.hdr.objLength, g.hdr.fold)) ∧ s.chip.othersKept t.chip i ∧
      t.chip.intake = { s.chip.intake with state := .awaitHeader, headerBytes := [], seg := none } ∧
      t = { s with
        chip := { Chip.settledBase s.chip t.chip with
          intake := t.chip.intake, extFree := t.chip.extFree, cache := t.chip.cache, retired := t.chip.retired,
          notice := { s.chip.notice with queue := t.chip.notice.queue, latches := t.chip.notice.latches, re := t.chip.notice.re } } }) ∧
  (∀ (s : State) (cmd : Instr) (g : Segment) (i : Nat) (ctx : Context), s.chip.toLookup cmd g → g.hdr.kind = .close →
    Table.find g.hdr.tag s.chip.slots = some (i, ctx) → s.chip.context? i = some ctx → s.chip.tableOk →
    let r := closeRecord g.hdr.objLength g.hdr.fold g.hdr.sizeCode
    let idle := Timer.running (s.chip.now + s.chip.idleTime)
    ∃ t, exec cmd s = .next t ∧
      t.chip.intake = { s.chip.intake with state := .awaitHeader, headerBytes := [], seg := none } ∧
      (∀ a, ctx.role = .anchor a → a.close = none → closeFault ctx.sizeCode ctx.cover a g.hdr.sizeCode r = none →
        (a.state = .claiming →
          s.chip.closeKept t.chip g i ctx ∧ s.chip.noticed t.chip [] ∧ s.chip.othersKept t.chip i ∧
            t = { s with chip := Chip.eventBase s.chip t.chip }) ∧
        (a.state = .opened → Coverage.whole ctx.cover r.blocks = false →
          ∃ (fronts : List Notice) (last : Nat), s.chip.noticed t.chip fronts ∧ s.chip.othersKept t.chip i ∧
            s.chip.frontTested t.chip ctx.tag (Coverage.front ctx.cover) a.lastFront fronts last ∧
            Table.get i t.chip.slots = some (.live { ctx with
              idle := idle, role := .anchor { a with close := some r, state := .closing, lastFront := last } }) ∧
            t = { s with chip := { Chip.eventBase s.chip t.chip with cmd := t.chip.cmd } })) ∧
      (∀ a o, ctx.role = .anchor a → a.close = none → closeFault ctx.sizeCode ctx.cover a g.hdr.sizeCode r = some o →
        a.state ≠ .claiming →
        s.chip.ended t.chip i ctx a o (some (g.hdr.objLength, g.hdr.fold)) ∧ s.chip.othersKept t.chip i ∧
          t = { s with chip := Chip.endedBase s.chip t.chip }) ∧
      (∀ a, ctx.role = .anchor a → a.state = .claiming → s.chip.noneOwed ctx.tag →
        (∀ o, a.close = none → closeFault ctx.sizeCode ctx.cover a g.hdr.sizeCode r = some o →
          s.chip.claimEnded t.chip i ctx a o (some (g.hdr.objLength, g.hdr.fold)) ∧ s.chip.othersKept t.chip i ∧
            t = { s with chip := Chip.claimEndedBase s.chip t.chip }) ∧
        (∀ k, a.close = some k → k.length ≠ g.hdr.objLength ∨ k.fold ≠ g.hdr.fold ∨ g.hdr.sizeCode ≠ ctx.sizeCode →
          s.chip.claimEnded t.chip i ctx a .closeConflict (some (k.length, k.fold)) ∧ s.chip.othersKept t.chip i ∧
            t = { s with chip := Chip.claimEndedBase s.chip t.chip })) ∧
      (∀ a k, ctx.role = .anchor a → a.close = some k →
        (k.length = g.hdr.objLength → k.fold = g.hdr.fold → g.hdr.sizeCode = ctx.sizeCode →
          Table.get i t.chip.slots = some (.live { ctx with localDup := countUp ctx.localDup, idle := idle }) ∧
            s.chip.noticed t.chip [] ∧ s.chip.othersKept t.chip i ∧ t = { s with chip := Chip.eventBase s.chip t.chip }) ∧
        (k.length ≠ g.hdr.objLength ∨ k.fold ≠ g.hdr.fold ∨ g.hdr.sizeCode ≠ ctx.sizeCode → a.state ≠ .claiming →
          s.chip.ended t.chip i ctx a .closeConflict (some (k.length, k.fold)) ∧ s.chip.othersKept t.chip i ∧
            t = { s with chip := Chip.endedBase s.chip t.chip })) ∧
      (∀ f, ctx.role = .feeder f → f.state = .feeding → 0 < s.chip.pendFree →
        s.chip.closeKept t.chip g i ctx ∧ s.chip.noticed t.chip [] ∧ s.chip.othersKept t.chip i ∧
          t = { s with chip := { Chip.eventBase s.chip t.chip with pendFree := t.chip.pendFree } }) ∧
      (∀ f n, ctx.role = .feeder f →
        (n = 3 ∧ f.state = .releaseWait) ∨ (n = 5 ∧ f.state = .feeding ∧ s.chip.pendFree = 0) →
        (∀ j, s.chip.slotKept t.chip j) ∧ s.chip.noticed t.chip [] ∧
          t = { s with chip := { Chip.eventBase s.chip t.chip with cmd := s.chip.counted n } }))

/-- PAYLOAD_BYTE below the header's payload length: the byte goes to the buffer's address plus its number; while the table walk
is still being made it waits in the fold unit, and otherwise it completes a symbol, which is folded, or is kept as the high byte
of one. The last byte of the payload completes its symbol, an odd payload with a low byte of 0; the block sum, the accumulator's
fold reduction, is handed over and the unit is cleared. TABLE_WALK_DONE with no byte waiting: the running power is W^e modulo P
for the READY table of W, and nothing else changes. While the fold unit holds the payload bytes of a landing block so far, each
further PAYLOAD_BYTE is held with them, and a TABLE_WALK_DONE folds those that wait; the last one to come, byte or walk, hands
the block sum of the whole payload over to the intake and leaves the unit clear. It follows the model's reading in log 22. -/
def Obligations.PayloadByteIsLandedAndFolded : Prop :=
  (∀ (s : State) (g : Segment) (hd : Handle) (b : Byte), s.chip.portReady = true → s.chip.intake.state = .landing →
    s.chip.intake.seg = some g → g.handle = some hd → g.taken < g.hdr.length →
    ∃ t, exec (.payloadByte b) s = .next t ∧
      t.chip.payloadWrites =
        s.chip.payloadWrites ++ [{ handle := hd, addr := hd.addr + BitVec.ofNat 64 g.taken, data := b }] ∧
      (s.chip.fold.walk.isSome = true →
        t.chip.fold = { s.chip.fold with waiting := s.chip.fold.waiting ++ [b] } ∧
        t.chip.intake = { s.chip.intake with headerBytes := [], seg := some { g with taken := g.taken + 1 } }) ∧
      (s.chip.fold.walk = none → s.chip.fold.folded + 1 < g.hdr.length →
        t.chip.intake = { s.chip.intake with headerBytes := [], seg := some { g with taken := g.taken + 1 } } ∧
        ∀ r, s.chip.fold.power = some r →
          (∀ hi, s.chip.fold.odd = some hi →
            t.chip.fold = { s.chip.fold with
              folded := s.chip.fold.folded + 1, odd := none, acc := s.chip.fold.acc + (256 * hi.toNat + b.toNat) * r,
              power := some (foldReduce (r * s.chip.params.weight)) }) ∧
          (s.chip.fold.odd = none →
            t.chip.fold = { s.chip.fold with folded := s.chip.fold.folded + 1, odd := some b })) ∧
      (s.chip.fold.walk = none → s.chip.fold.folded + 1 = g.hdr.length →
        ∀ r, s.chip.fold.power = some r →
          let last := match s.chip.fold.odd with | some hi => 256 * hi.toNat + b.toNat | none => 256 * b.toNat
          t.chip.fold = s.chip.fold.clear ∧
          t.chip.intake = { s.chip.intake with
            headerBytes := [],
            seg := some { g with taken := g.taken + 1, sum := some (foldReduce (s.chip.fold.acc + last * r)) } }) ∧
      t = { s with
        chip := { s.chip with intake := t.chip.intake, fold := t.chip.fold, payloadWrites := t.chip.payloadWrites } }) ∧
  (∀ (s : State) (g : Segment) (w e : Nat), s.chip.inReset = false → s.chip.intake.state = .landing →
    s.chip.intake.seg = some g → s.chip.fold.walk = some e → s.chip.fold.waiting = [] →
    s.chip.fold.folded < g.hdr.length → s.chip.intake.headerBytes = [] →
    2 ≤ w → w < foldP - 1 → s.chip.fold.entries = powerTable w → e < 2 ^ 31 →
    exec .tableWalkDone s = .next { s with
      chip := { s.chip with fold := { s.chip.fold with walk := none, power := some (w ^ e % foldP) } } }) ∧
  ((∀ (s : State) (g : Segment) (hd : Handle) (b : Byte) (bs : List Byte), s.chip.portReady = true →
    s.chip.intake.state = .landing → s.chip.intake.seg = some g → g.handle = some hd → g.taken = bs.length →
    bs.length < g.hdr.length → s.chip.fold.entries = powerTable s.chip.params.weight → s.chip.foldHolds g bs →
    ∃ t, exec (.payloadByte b) s = .next t ∧
      (bs.length + 1 < g.hdr.length ∨ s.chip.fold.walk ≠ none →
        t.chip.foldHolds g (bs ++ [b]) ∧ t.chip.intake.seg = some { g with taken := g.taken + 1 }) ∧
      (bs.length + 1 = g.hdr.length → s.chip.fold.walk = none →
        t.chip.fold = s.chip.fold.clear ∧
          t.chip.intake.seg = some { g with
            taken := g.taken + 1,
            sum := some (blockSum s.chip.params.weight g.hdr.block g.hdr.sizeCode (bs ++ [b])) })) ∧
  (∀ (s : State) (g : Segment) (bs : List Byte), s.chip.inReset = false → s.chip.intake.state = .landing →
    s.chip.intake.seg = some g → bs.length ≤ g.hdr.length → 0 < g.hdr.length →
    s.chip.fold.entries = powerTable s.chip.params.weight → s.chip.fold.walk ≠ none → s.chip.foldHolds g bs →
    ∃ t, exec .tableWalkDone s = .next t ∧ t.chip.fold.walk = none ∧
      (bs.length < g.hdr.length → t.chip.foldHolds g bs ∧ t.chip.intake.seg = some g) ∧
      (bs.length = g.hdr.length →
        t.chip.fold = s.chip.fold.clear ∧
          t.chip.intake.seg = some { g with sum := some (blockSum s.chip.params.weight g.hdr.block g.hdr.sizeCode bs) }) ∧
      t = { s with chip := { s.chip with intake := t.chip.intake, fold := t.chip.fold } }))

/-- LANDING_FLAG with a BAD flag or a payload of the wrong length: the segment is dropped WIRE, its handle goes on top of the
recycle stack of its class, and its reservations are released. A flag that finds the table walk unfinished acts as
TABLE_WALK_DONE and the flag after it (the model's reading, log 20). With a GOOD flag and the whole payload, a segment whose tag
no context holds any more, or whose feeder is in RELEASE-WAIT, is dropped LATE, and one whose block its context now covers is
dropped LOCAL-DUPLICATE and counted there, one that finds no room for it CLAIM-WAIT, EXTENT-SHORT or PENDING-FULL, the handle
and the reservations going the same way; one that fails the close and shape checks of its anchor ends the object and is dropped
OBJECT-ENDED. It follows the model's reading in logs 11, 12 and 20. -/
def Obligations.WireDropRecyclesHandle : Prop :=
  ((∀ (s : State) (g : Segment) (hd : Handle) (good : Bool), s.chip.portReady = true → s.chip.intake.state = .landing →
    s.chip.intake.seg = some g → g.handle = some hd → s.chip.fold.walk = none → good = false ∨ g.taken ≠ g.hdr.length →
    s.chip.tableOk →
    ∃ t, exec (.landingFlag good) s = .next t ∧
      t.chip.intake = { s.chip.intake with state := .awaitHeader, headerBytes := [], seg := none } ∧
      t.chip.fold = s.chip.fold.clear ∧
      t.chip.pool hd.cls = { s.chip.pool hd.cls with stack := hd :: (s.chip.pool hd.cls).stack } ∧
      (∀ cls, cls ≠ hd.cls → t.chip.pool cls = s.chip.pool cls) ∧
      t.chip.extFree = s.chip.extFree + (if g.extentRes then 1 else 0) ∧
      t.chip.pendFree = s.chip.pendFree + (if g.pendingRes then 1 else 0) ∧
      t.chip.notice.rb = s.chip.notice.rb - (if g.blockRes then 1 else 0) ∧
      t.chip.cmd = { s.chip.cmd with
        counters := s.chip.cmd.counters.set 7 (countUp s.chip.cmd.counters[(7 : Fin 16)]) } ∧
      s.chip.noticed t.chip [] ∧ (∀ j, s.chip.slotKept t.chip j) ∧
      t = { s with
        chip := { Chip.settledBase s.chip t.chip with
          intake := t.chip.intake, fold := t.chip.fold, small := t.chip.small, large := t.chip.large,
          extFree := t.chip.extFree, pendFree := t.chip.pendFree, cmd := t.chip.cmd,
          notice := { s.chip.notice with queue := t.chip.notice.queue, latches := t.chip.notice.latches, rb := t.chip.notice.rb } } }) ∧
  (∀ (s : State) (g : Segment) (hd : Handle) (good : Bool), s.chip.portReady = true → s.chip.intake.state = .landing →
    s.chip.intake.seg = some g → g.handle = some hd → s.chip.fold.walk ≠ none →
    ∃ u, exec .tableWalkDone s = .next u ∧ u.chip.fold.walk = none ∧ u.chip.portReady = true ∧ u.chip.intake.state = .landing ∧
      (∃ sum, u.chip.intake.seg = some { g with sum := sum }) ∧ exec (.landingFlag good) s = exec (.landingFlag good) u)) ∧
  (∀ (s : State) (g : Segment) (hd : Handle), s.chip.portReady = true → s.chip.intake.state = .landing →
    s.chip.intake.seg = some g → g.handle = some hd → s.chip.fold.walk = none → g.taken = g.hdr.length → s.chip.tableOk →
    (Table.find g.hdr.tag s.chip.slots = none →
      ∃ t, exec (.landingFlag true) s = .next t ∧ s.chip.recycledDrop t.chip g hd 3 ∧ (∀ j, s.chip.slotKept t.chip j) ∧
        t = { s with chip := { Chip.landedBase s.chip t.chip with cmd := t.chip.cmd } }) ∧
    (∀ i ctx, Table.find g.hdr.tag s.chip.slots = some (i, ctx) → s.chip.context? i = some ctx →
      (Chip.releaseWaits ctx = true →
        ∃ t, exec (.landingFlag true) s = .next t ∧ s.chip.recycledDrop t.chip g hd 3 ∧ (∀ j, s.chip.slotKept t.chip j) ∧
          t = { s with chip := { Chip.landedBase s.chip t.chip with cmd := t.chip.cmd } }) ∧
      (Chip.releaseWaits ctx = false → Coverage.holds ctx.cover g.hdr.block = true →
        ∃ t, exec (.landingFlag true) s = .next t ∧ s.chip.recycledDrop t.chip g hd 4 ∧
          t.chip.slotIs i (some (.live { ctx with localDup := countUp ctx.localDup })) ∧ s.chip.othersKept t.chip i ∧
          t = { s with chip := { Chip.landedBase s.chip t.chip with cmd := t.chip.cmd } }) ∧
      (Coverage.holds ctx.cover g.hdr.block = false → s.chip.completionShort g ctx →
        ∃ t, exec (.landingFlag true) s = .next t ∧ s.chip.recycledDrop t.chip g hd 5 ∧ (∀ j, s.chip.slotKept t.chip j) ∧
          t = { s with chip := { Chip.landedBase s.chip t.chip with cmd := t.chip.cmd } }) ∧
      (∀ a o, ctx.role = .anchor a → Coverage.holds ctx.cover g.hdr.block = false →
        shapeFault ctx.sizeCode ctx.cover a g.hdr.sizeCode g.hdr.block g.hdr.length = some o →
        let mid := s.chip.givenBack g hd 3
        let close := a.close.map fun r => (r.length, r.fold)
        ∃ t, exec (.landingFlag true) s = .next t ∧ t.chip.intake = mid.intake ∧
          (a.state ≠ .claiming →
            mid.ended t.chip i ctx a o close ∧ s.chip.othersKept t.chip i ∧ t = { s with chip := Chip.endedBase mid t.chip }) ∧
          (a.state = .claiming → s.chip.noneOwed ctx.tag →
            mid.claimEnded t.chip i ctx a o close ∧ s.chip.othersKept t.chip i ∧
              t = { s with chip := Chip.claimEndedBase mid t.chip }))))

/-- LANDING_FLAG with a GOOD flag at an anchor that takes the block: the block enters the coverage list, the object sum and the
accepted count, and a short block sets the short mark; in OPEN, and in CLOSING when the coverage is not complete, its BLOCK
notice is queued in its block reservation, followed by a FRONT notice when the front has risen by the step and there is
unreserved room; in CLOSING with the coverage complete its BLOCK notice is queued and the object ends VERIFIED or MISMATCH; in
CLAIMING it becomes provisional. LANDING_FLAG with a GOOD flag at a FEEDING context with a pending entry to be had: the block
becomes a pending BLOCK entry at the tail, keeping its block reservation, and enters the advisory list, which is emptied when no
extent can be had. It follows the model's reading in log 11. -/
def Obligations.LandedBlockIsAccepted : Prop :=
  (∀ (s : State) (g : Segment) (hd : Handle) (i : Nat) (ctx : Context) (a : Anchor), s.chip.portReady = true →
    s.chip.intake.state = .landing → s.chip.intake.seg = some g → g.handle = some hd → s.chip.fold.walk = none →
    g.taken = g.hdr.length → Table.find g.hdr.tag s.chip.slots = some (i, ctx) → s.chip.anchor? i = some (ctx, a) →
    s.chip.tableOk → Coverage.holds ctx.cover g.hdr.block = false →
    shapeFault ctx.sizeCode ctx.cover a g.hdr.sizeCode g.hdr.block g.hdr.length = none →
    noExtent ctx.cover g.hdr.block (s.chip.extFree + (if g.extentRes then 1 else 0)) s.chip.params.extentCap = false →
    (a.state = .claiming → a.provisional.length < Config.provisionalBlocks) → 0 < s.chip.notice.rb →
    let item : BlockItem := { block := g.hdr.block, length := g.hdr.length, sum := g.sum.getD 0, handle := hd }
    let cover := Coverage.insert item.block ctx.cover
    let a' : Anchor := { a with
      sum := addFold a.sum item.sum, accepted := a.accepted + 1,
      shortMark := if item.length < blockSize ctx.sizeCode then some (item.block, item.length) else a.shortMark }
    let ctx' : Context := { ctx with cover := cover, idle := .running (s.chip.now + s.chip.idleTime) }
    let extFree := s.chip.extFree + (if g.extentRes then 1 else 0) + ctx.cover.length - cover.length
    let pendFree := s.chip.pendFree + (if g.pendingRes then 1 else 0)
    let complete : Bool := a.state = .closing && (match a.close with | some r => Coverage.whole cover r.blocks | none => false)
    ∃ t, exec (.landingFlag true) s = .next t ∧
      t.chip.intake = { s.chip.intake with state := .awaitHeader, headerBytes := [], seg := none } ∧
      t.chip.fold = s.chip.fold.clear ∧ t.chip.pendFree = pendFree ∧ s.chip.othersKept t.chip i ∧
      (a.state ≠ .claiming → complete = false →
        ∃ (fronts : List Notice) (last : Nat),
          s.chip.noticed t.chip (.block ctx.tag s.chip.self item :: fronts) ∧
          s.chip.frontTested t.chip ctx.tag (Coverage.front cover) a.lastFront fronts last ∧
          Table.get i t.chip.slots = some (.live { ctx' with role := .anchor { a' with lastFront := last } }) ∧
          t.chip.notice.rb = s.chip.notice.rb - 1 ∧ t.chip.extFree = extFree ∧
          t = { s with chip := { Chip.landedBase s.chip t.chip with cmd := t.chip.cmd } }) ∧
      (∀ r, a.close = some r → complete = true →
        let mid : Chip := { s.chip with
          extFree := extFree,
          notice := { s.chip.notice with
            queue := s.chip.notice.queue ++ [.block ctx.tag s.chip.self item], rb := s.chip.notice.rb - 1 } }
        mid.ended t.chip i ctx' a' (if a'.sum = r.fold then .verified else .mismatch) (some (r.length, r.fold)) ∧
          t = { s with chip := { Chip.endedBase mid t.chip with fold := t.chip.fold, pendFree := t.chip.pendFree } }) ∧
      (a.state = .claiming →
        s.chip.noticed t.chip [] ∧ t.chip.notice.rb = s.chip.notice.rb ∧ t.chip.extFree = extFree ∧
          Table.get i t.chip.slots =
            some (.live { ctx' with role := .anchor { a' with provisional := a.provisional ++ [item] } }) ∧
          t = { s with chip := Chip.landedBase s.chip t.chip })) ∧
  (∀ (s : State) (g : Segment) (hd : Handle) (i : Nat) (ctx : Context) (f : Feeder), s.chip.portReady = true →
    s.chip.intake.state = .landing → s.chip.intake.seg = some g → g.handle = some hd → s.chip.fold.walk = none →
    g.taken = g.hdr.length → Table.find g.hdr.tag s.chip.slots = some (i, ctx) → s.chip.feeder? i = some (ctx, f) →
    f.state = .feeding → Coverage.holds ctx.cover g.hdr.block = false → g.pendingRes = true ∨ 0 < s.chip.pendFree →
    s.chip.tableOk →
    let item : BlockItem := { block := g.hdr.block, length := g.hdr.length, sum := g.sum.getD 0, handle := hd }
    let extra := s.chip.extFree + (if g.extentRes then 1 else 0)
    let cover :=
      if noExtent ctx.cover item.block extra s.chip.params.extentCap then [] else Coverage.insert item.block ctx.cover
    ∃ t, exec (.landingFlag true) s = .next t ∧
      t.chip.intake = { s.chip.intake with state := .awaitHeader, headerBytes := [], seg := none } ∧
      t.chip.fold = s.chip.fold.clear ∧ t.chip.extFree = extra + ctx.cover.length - cover.length ∧
      t.chip.pendFree = s.chip.pendFree + (if g.pendingRes then 1 else 0) - 1 ∧ t.chip.notice.rb = s.chip.notice.rb ∧
      s.chip.noticed t.chip [] ∧ s.chip.othersKept t.chip i ∧
      t.chip.slotIs i (some (.live { ctx with
        cover := cover, idle := .running (s.chip.now + s.chip.idleTime),
        role := .feeder { f with entries := f.entries ++ [{ body := .block item, joined := s.chip.now }] } })) ∧
      t = { s with chip := Chip.landedBase s.chip t.chip })

/-! ## Fold arithmetic -/

/-- The fold reduction of a value of up to 64 bits is its remainder modulo P. The power table of an accepted weight: 31 entries,
entry t being W^(2^t) modulo P. -/
def Obligations.FoldArithmeticIsModular : Prop :=
  (∀ x : Nat, x < 2 ^ 64 → foldReduce x = x % foldP) ∧
  (∀ w : Nat, 2 ≤ w → w < foldP - 1 →
    (powerTable w).length = 31 ∧ ∀ t : Nat, t < 31 → (powerTable w)[t]? = some (w ^ 2 ^ t % foldP))

/-- The block sum formed by streaming is the sum of s_i × W^j over the payload's symbols, modulo P, with j = k × (B / 2) + i, a
short block taking its positions from k × (B / 2) onward like any other. W^(P - 1) is 1 modulo P, a block's first index is a
multiple of P - 1 exactly when its number is a multiple of 1073741823, and the largest index is (2^32 - 1) × 32768 + 32767,
below 2^47. -/
def Obligations.BlockSumIsWeightedSum : Prop :=
  (∀ (w k c : Nat) (payload : List Byte), 2 ≤ w → w < foldP - 1 → k < 2 ^ 32 → c ≤ 7 → payload ≠ [] →
    payload.length ≤ blockSize c →
    blockSum w k c payload =
      ((List.range ((payload.length + 1) / 2)).map fun i => symbol payload i * w ^ (k * (blockSize c / 2) + i)).sum % foldP) ∧
  (∀ w : Nat, 2 ≤ w → w < foldP - 1 → w ^ (foldP - 1) % foldP = 1) ∧
  (∀ k c : Nat, k < 2 ^ 32 → c ≤ 7 → (foldP - 1 ∣ k * (blockSize c / 2) ↔ 1073741823 ∣ k)) ∧
  (∀ k c i : Nat, k < 2 ^ 32 → c ≤ 7 → i < blockSize c / 2 → k * (blockSize c / 2) + i ≤ (2 ^ 32 - 1) * 32768 + 32767) ∧
  (2 ^ 32 - 1) * 32768 + 32767 < 2 ^ 47

/-! ## Coverage -/

/-- A block that is not covered enters a coverage list in the form of R66: the list stays in that form, covers exactly that
block more, and names one block more; it gains an extent in the new-extent case, keeps its number when an extent is lengthened,
and loses one when two are joined. A covered block leaves an advisory list in the form of R66: the list stays in that form and
covers exactly that block less. The front of a list in the form of R66 is the number of blocks held from block 0 without a gap.
-/
def Obligations.CoverageChangesAreExact : Prop :=
  (∀ (l : List Extent) (k : Nat), Coverage.ordered l = true → Coverage.holds l k = false →
    Coverage.ordered (Coverage.insert k l) = true ∧
    (∀ j, Coverage.holds (Coverage.insert k l) j = (decide (j = k) || Coverage.holds l j)) ∧
    Coverage.blocks (Coverage.insert k l) = Coverage.blocks l + 1 ∧
    (Coverage.place l k = .fresh → (Coverage.insert k l).length = l.length + 1) ∧
    (Coverage.place l k = .extendsEnd ∨ Coverage.place l k = .extendsStart → (Coverage.insert k l).length = l.length) ∧
    (Coverage.place l k = .bridge → (Coverage.insert k l).length + 1 = l.length)) ∧
  (∀ (l : List Extent) (k : Nat), Coverage.ordered l = true → Coverage.holds l k = true →
    Coverage.ordered (Coverage.remove k l) = true ∧
    (∀ j, Coverage.holds (Coverage.remove k l) j = (decide (j ≠ k) && Coverage.holds l j)) ∧
    Coverage.blocks (Coverage.remove k l) + 1 = Coverage.blocks l) ∧
  (∀ l : List Extent, Coverage.ordered l = true →
    (∀ j, j < Coverage.front l → Coverage.holds l j = true) ∧ Coverage.holds l (Coverage.front l) = false)

/-! ## The medium and the link -/

/-- Stuffing is undone by the receiver, and no stuffed string holds six consecutive recessive bits. -/
def Obligations.StuffingRoundTrips : Prop :=
  ∀ bs : List Bool, unstuffFrom 0 (stuff bs) = some bs ∧ longestRun 0 (stuff bs) ≤ 5

/-- A frame this part sends is valid at every other station: its CRC, class, kind and length pass the checks of R89. -/
def Obligations.SentFramesAreValid : Prop :=
  ∀ (f : Frame) (sender hearer : Station), sender ≠ hearer →
    (∀ t, f = .tally t → 1 ≤ t.entries.length ∧ t.entries.length ≤ 8) →
    (∀ v, f = .verdict v → v.verdict.inRange = true) →
    (∀ b, f = .answer b → b.length = 6 ∨ b.length = 31 ∨ b.length = 52) →
    framed (f.heard sender) = true ∧ frameFault hearer (f.heard sender) = false

/-- A TALLY body is read back as it was written, no bit of an entry dropped; the addressed station is the one the reader gives,
since byte 9 is checked before the body is read. A VERDICT body is read back as it was written, tag, sequence number and
addressed station included. -/
def Obligations.TallyAndVerdictRoundTrip : Prop :=
  (∀ t : TallyBody, t.sizeCode ≤ 7 → 1 ≤ t.entries.length → t.entries.length ≤ 8 →
    (∀ e ∈ t.entries, e.inRange = true) → parseTally t.dest t.bytes = some t) ∧
  (∀ v : VerdictBody, v.verdict.inRange = true →
    parseVerdict v.bytes = some v.verdict ∧ tagAt v.bytes 0 = v.tag ∧ byteAt v.bytes 8 = v.seq ∧
      stationOf (byteAt v.bytes 9) = some v.dest)

/-- VALID_IDLE: a SYNCED station that is not FAULTED and has no frame on the wire begins the head of its lowest non-empty class,
and the frame stays in its queue; a station 1..7 in SEEKING goes to SETTLING with 40 µs of idle to count. It follows the model's
reading in logs 10 and 45. -/
def Obligations.ValidIdleBeginsLowestClass : Prop :=
  (∀ (s : State) (q : Fin 4) (f : Frame) (rest : List Frame), s.chip.inReset = false → s.chip.link.state = .synced →
    s.chip.cmd.mode ≠ .faulted → s.chip.link.wire = none → s.chip.link.queues[q] = f :: rest →
    (∀ p : Fin 4, p < q → s.chip.link.queues[p] = []) →
    exec .validIdle s = .next { s with
      chip := { s.chip with
        link := { s.chip.link with
          mediumIdle := true, receiver := .listening,
          wire := some { cls := q, frame := f, queued := true, withdraw := false } } } }) ∧
  ∀ s : State, s.chip.inReset = false → s.chip.link.state = .seeking → s.chip.self ≠ 0 →
    exec .validIdle s = .next { s with
      chip := { s.chip with
        link := { s.chip.link with
          mediumIdle := true, receiver := .listening, state := .settling,
          settle := .running (s.chip.now + Config.linkSettle) } } }

/-- MEDIUM_LEAVES_VALID_IDLE begun by another station: the receiver begins taking the frame from SETTLING or SYNCED, and the
link settle timer pauses. ARBITRATION_LOST: the station stops driving and takes the rest of the winner's frame; its own frame
stays at the head of its queue when no withdrawal was kept with it. FALSE_START and LONG_FRAME while the receiver takes frames:
the counter of each advances, the medium is ignored until valid idle, and SETTLING goes back to SEEKING; nothing else changes.
BAD_FRAME: a framed frame with a CRC or form fault is discarded and LINK-BAD-FRAME advances; it counts for nothing else. It
follows the model's reading in logs 9, 10 and 35. -/
def Obligations.ReceiverTakesFrame : Prop :=
  (∀ s : State, s.chip.inReset = false → s.chip.link.wire = none → s.chip.link.receiver = .listening →
    s.chip.link.state ≠ .seeking →
    exec (.mediumLeavesValidIdle false) s = .next { s with
      chip := { s.chip with
        link := { s.chip.link with
          mediumIdle := false, receiver := .taking,
          settle := if s.chip.link.state = .settling then s.chip.link.settle.suspend s.chip.now else s.chip.link.settle } } }) ∧
  (∀ (s : State) (w : Wire), s.chip.inReset = false → s.chip.link.wire = some w → w.withdraw = false →
    exec .arbitrationLost s = .next { s with
      chip := { s.chip with link := { s.chip.link with wire := none, receiver := .taking, mediumIdle := false } } }) ∧
  (∀ s : State, s.chip.hearing = true →
    let lost (n : Fin 16) : State :=
      { s with
        chip := { s.chip with
          cmd := { s.chip.cmd with counters := s.chip.cmd.counters.set n (countUp s.chip.cmd.counters[n]) },
          link := { s.chip.link with
            receiver := .ignoring, mediumIdle := false,
            state := if s.chip.link.state = .settling then .seeking else s.chip.link.state,
            settle := if s.chip.link.state = .settling then .stopped else s.chip.link.settle } } }
    exec .falseStart s = .next (lost 8) ∧ exec .longFrame s = .next (lost 9)) ∧
  (∀ (s : State) (f : HeardFrame), s.chip.hearing = true → framed f = true → frameFault s.chip.self f = true →
    exec (.badFrame f) s = .next { s with
      chip := { s.chip with
        cmd := { s.chip.cmd with
          counters := s.chip.cmd.counters.set 10 (countUp s.chip.cmd.counters[(10 : Fin 16)]) },
        link := { s.chip.link with
          receiver := .listening, mediumIdle := false,
          settle := if s.chip.link.state = .settling then s.chip.link.settle.suspend s.chip.now else s.chip.link.settle } } })

/-- FRAME_SENT: the frame leaves the head of its queue and the strike is cleared; a CLAIM's context then has its settle timer
running (for the settle time, suspended outside SYNCED), a TALLY's is AWAITING. A class-1 place that is freed while a frame is
owed goes to the owed frame of lowest table index: a RELEASE joins class 1 and its slot becomes FREE, a CLAIM joins it and is
owed no more. It follows the model's reading in logs 12, 29 and 35. -/
def Obligations.SentFrameLeavesQueue : Prop :=
  (∀ (s : State) (w : Wire), s.chip.inReset = false → s.chip.link.wire = some w → w.queued = true →
    (w.cls = 1 → Table.firstOwed s.chip.slots = none) →
    ∃ t, exec .frameSent s = .next t ∧
      t = { s with
        chip := { s.chip with
          slots := t.chip.slots,
          link := { s.chip.link with
            strike := false, mediumIdle := false, wire := none,
            queues := s.chip.link.queues.set w.cls (s.chip.link.queues[w.cls]).tail } } } ∧
      (∀ j, (∀ tag ctx, w.frame = .claim tag → Table.find tag s.chip.slots ≠ some (j, ctx)) →
        (∀ b ctx, w.frame = .tally b → Table.find b.tag s.chip.slots ≠ some (j, ctx)) →
        Table.get j t.chip.slots = Table.get j s.chip.slots) ∧
      (∀ tag i ctx a, w.frame = .claim tag → w.withdraw = false → Table.find tag s.chip.slots = some (i, ctx) →
        s.chip.anchor? i = some (ctx, a) → a.state = .claiming → a.claimSent = false → a.claimOwed = false →
        t.chip.anchor? i = some ({ ctx with
            role := .anchor { a with claimSent := true, settle := s.chip.startSynced s.chip.params.claimSettle } },
          { a with claimSent := true, settle := s.chip.startSynced s.chip.params.claimSettle })) ∧
      (∀ b i ctx f y, w.frame = .tally b → Table.find b.tag s.chip.slots = some (i, ctx) →
        s.chip.feeder? i = some (ctx, f) → f.tally = some y → y.dest = b.dest → y.seq = b.seq → y.stage = .queued →
        t.chip.feeder? i =
          let f' : Feeder := { f with
            tally := some { y with stage := .awaiting, timer := s.chip.startSynced s.chip.params.verdictTimeout } }
          some ({ ctx with role := .feeder f' }, f'))) ∧
  (∀ (s : State) (w : Wire) (j : Nat) (x : Slot), s.chip.inReset = false → s.chip.link.wire = some w → w.queued = true →
    w.cls = 1 → s.chip.tableOk → s.chip.link.queues[(1 : Fin 4)].length ≤ 32 → s.chip.link.queues[(1 : Fin 4)] ≠ [] →
    Table.firstOwed s.chip.slots = some (j, x) →
    (∀ tag ctx, w.frame = .claim tag → Table.find tag s.chip.slots ≠ some (j, ctx)) → (∀ b, w.frame ≠ .tally b) →
    let given : Frame := match x with | .owing tag o => .release tag o | .live ctx => .claim ctx.tag
    ∃ t, exec .frameSent s = .next t ∧
      (∀ tag o, x = .owing tag o → Table.get j t.chip.slots = none) ∧
      (∀ ctx a, x = .live ctx → ctx.role = .anchor a →
        Table.get j t.chip.slots = some (.live { ctx with role := .anchor { a with claimOwed := false } })) ∧
      (∀ k, k ≠ j → (∀ tag ctx, w.frame = .claim tag → Table.find tag s.chip.slots ≠ some (k, ctx)) →
        Table.get k t.chip.slots = Table.get k s.chip.slots) ∧
      (∀ tag i ctx a, w.frame = .claim tag → w.withdraw = false → Table.find tag s.chip.slots = some (i, ctx) →
        ctx.role = .anchor a → a.state = .claiming → a.claimSent = false → a.claimOwed = false →
        Table.get i t.chip.slots = some (.live { ctx with
          role := .anchor { a with claimSent := true, settle := s.chip.startSynced s.chip.params.claimSettle } })) ∧
      t = { s with
        chip := { s.chip with
          slots := t.chip.slots,
          link := { s.chip.link with
            strike := false, mediumIdle := false, wire := none,
            queues := s.chip.link.queues.set 1 (s.chip.link.queues[(1 : Fin 4)].tail ++ [given]) } } })

/-- COLLISION with the strike clear: the frame is aborted and stays in its queue, LINK-COLLISION advances, the strike is set,
and the medium is ignored. A second consecutive COLLISION: the station becomes FAULTED, asserts FAULT, and has no feeder context
left; a RESTARTING station keeps its mode and takes FAULTED at the end of the sequence. It follows the model's reading in logs
11, 35 and 38. -/
def Obligations.CollisionStrikesThenFaults : Prop :=
  (∀ (s : State) (w : Wire), s.chip.inReset = false → s.chip.link.wire = some w → w.withdraw = false →
    s.chip.link.strike = false →
    exec .collision s = .next { s with
      chip := { s.chip with
        cmd := { s.chip.cmd with
          counters := s.chip.cmd.counters.set 11 (countUp s.chip.cmd.counters[(11 : Fin 16)]) },
        link := { s.chip.link with wire := none, receiver := .ignoring, mediumIdle := false, strike := true } } }) ∧
  (∀ (s : State) (w : Wire), s.chip.inReset = false → s.chip.link.wire = some w → s.chip.link.strike = true →
    s.chip.tableOk → s.chip.cmd.mode ≠ .faulted →
    ∃ t, exec .collision s = .next t ∧
      t.chip.cmd.counters = s.chip.cmd.counters.set 11 (countUp s.chip.cmd.counters[(11 : Fin 16)]) ∧
      t.chip.link.wire = none ∧ t.chip.link.receiver = .ignoring ∧ t.chip.link.strike = true ∧
      t.chip.fold = s.chip.fold ∧ t.chip.cmd.setup = s.chip.cmd.setup ∧ t.chip.cmd.memory = s.chip.cmd.memory ∧
      t = { s with
        chip := { Chip.settledBase s.chip t.chip with
          cmd := t.chip.cmd, intake := t.chip.intake, extFree := t.chip.extFree, pendFree := t.chip.pendFree,
          cache := t.chip.cache, retired := t.chip.retired, small := t.chip.small, large := t.chip.large,
          notice := { s.chip.notice with
            queue := t.chip.notice.queue, latches := t.chip.notice.latches, re := t.chip.notice.re, rb := t.chip.notice.rb },
          link := { s.chip.link with
            queues := t.chip.link.queues, wire := none, receiver := .ignoring, mediumIdle := false } } } ∧
      (w.withdraw = false → ∀ j ctx a, s.chip.anchor? j = some (ctx, a) → t.chip.anchor? j = some (ctx, a)) ∧
      (s.chip.cmd.mode ≠ .restarting →
        t.chip.cmd.mode = .faulted ∧ t.chip.cmd.faultPin = true ∧ t.chip.feeders = []) ∧
      (s.chip.cmd.mode = .restarting → t.chip.cmd.mode = .restarting ∧ t.chip.cmd.faultAtEnd = true))

/-- LINK_SETTLE_DONE: SYNCED is entered; the hold timer runs for 8 intervals, the first schedule point falls self × (I / 8)
later, every PRESENT entry's countdown restarts at 4 intervals, the last beacon counts are cleared, and the suspended settle and
tally timers resume. HOLD_TIMER_EXPIRY: SYNCED is left, the schedule and the hold timer stop, the settle and tally timers and
the countdowns are suspended, the presence status stands, and SYNC-LOST is offered: it joins the latch of its kind or makes one,
and the latches are queued oldest first as far as there is room. It follows the model's reading in logs 3, 11 and 34. -/
def Obligations.SyncIsEnteredAndLost : Prop :=
  (∀ (s : State) (d : Nat), s.chip.inReset = false → s.chip.link.state = .settling → s.chip.link.settle = .running d →
  s.chip.tableOk →
    ∃ t, exec .linkSettleDone s = .next t ∧
      t.chip.now = max s.chip.now d ∧ t.chip.link.state = .synced ∧ t.chip.link.settle = .stopped ∧
      t.chip.link.hold = .running (max s.chip.now d + 8 * s.chip.interval) ∧
      t.chip.link.nextPoint = .running (max s.chip.now d + s.chip.self.val * (s.chip.interval / 8)) ∧
      (∀ x : Station, t.chip.link.presence[x].present = s.chip.link.presence[x].present ∧
        t.chip.link.presence[x].lastBeacon = none ∧ t.chip.link.presence[x].missed = s.chip.link.presence[x].missed ∧
        (s.chip.link.presence[x].present = true →
          t.chip.link.presence[x].countdown = .running (max s.chip.now d + 4 * s.chip.interval))) ∧
      s.chip.noticed t.chip [] ∧
      (∀ j ctx a, s.chip.anchor? j = some (ctx, a) →
        t.chip.anchor? j =
          let a' := { a with settle := a.settle.resume (max s.chip.now d) }
          some ({ ctx with role := .anchor a' }, a')) ∧
      (∀ j ctx f y, s.chip.feeder? j = some (ctx, f) → f.tally = some y →
        t.chip.feeder? j =
          let f' := { f with tally := some { y with timer := y.timer.resume (max s.chip.now d) } }
          some ({ ctx with role := .feeder f' }, f')) ∧
      t = { s with
        chip := { Chip.settledBase s.chip t.chip with now := t.chip.now, intake := t.chip.intake, link := t.chip.link } } ∧
      t.chip.link.beaconCount = s.chip.link.beaconCount ∧ t.chip.link.strike = s.chip.link.strike) ∧
  (∀ (s : State) (d : Nat), s.chip.inReset = false → s.chip.link.state = .synced → s.chip.link.hold = .running d →
    (s.chip.notice.latches.map Latch.event).Nodup →
    let new : Latch := { event := .syncLost, concerned := s.chip.self, set := addStation 0 s.chip.self, count := 1 }
    let joined (l : Latch) : Latch := { l with concerned := s.chip.self, set := addStation l.set s.chip.self, count := countUp l.count }
    let latches : List Latch :=
      if s.chip.notice.latches.any fun l => l.event = .syncLost then
        s.chip.notice.latches.map fun l => if l.event = .syncLost then joined l else l
      else s.chip.notice.latches ++ [new]
    ∃ t, exec .holdTimerExpiry s = .next t ∧
      t.chip.now = max s.chip.now d ∧
      t.chip.link.state = (if s.chip.link.mediumIdle ∧ s.chip.self ≠ 0 then .settling else .seeking) ∧
      t.chip.link.hold = .stopped ∧ t.chip.link.nextPoint = .stopped ∧
      (∀ x : Station, t.chip.link.presence[x] =
        { s.chip.link.presence[x] with countdown := s.chip.link.presence[x].countdown.suspend (max s.chip.now d) }) ∧
      (∀ j ctx a, s.chip.anchor? j = some (ctx, a) →
        t.chip.anchor? j =
          let a' := { a with settle := a.settle.suspend (max s.chip.now d) }
          some ({ ctx with role := .anchor a' }, a')) ∧
      (∀ j ctx f, s.chip.feeder? j = some (ctx, f) →
        t.chip.feeder? j =
          let f' := { f with tally := f.tally.map fun y => { y with timer := y.timer.suspend (max s.chip.now d) } }
          some ({ ctx with role := .feeder f' }, f')) ∧
      s.chip.latchesServed t.chip latches ∧
      t = { s with
        chip := { Chip.settledBase s.chip t.chip with now := t.chip.now, intake := t.chip.intake, link := t.chip.link } } ∧
      t.chip.link.beaconCount = s.chip.link.beaconCount ∧ t.chip.link.queues = s.chip.link.queues)

/-- BEACON_HEARD and ANSWER_HEARD in SYNCED: the sender is PRESENT with its countdown at 4 intervals and the hold timer at 8; a
BEACON also counts the beacons missed since the last one, and one from the lowest PRESENT station below self moves the next
schedule point, unless a frame of the station's own is on the wire; each other presence entry, context and pool is unchanged.
BEACON_POINT: the beacon count advances, a BEACON with the count taken joins class 3 unless one of its BEACONs stands there or
is on the wire, or class 3 is full, and the next point falls one interval later. It follows the model's reading in logs 3, 9 and
31. -/
def Obligations.BeaconCountsMissed : Prop :=
  ((∀ (s : State) (f : HeardFrame), s.chip.validHere f .beacon → s.chip.link.state = .synced →
    ∃ t, exec (.beaconHeard f) s = .next t ∧
      t.chip.link.hold = .running (s.chip.now + 8 * s.chip.interval) ∧
      t.chip.link.presence[f.src] =
        { present := true, countdown := .running (s.chip.now + 4 * s.chip.interval), lastBeacon := some (byteAt f.body 1),
          missed :=
            match s.chip.link.presence[f.src].lastBeacon with
            | none => s.chip.link.presence[f.src].missed
            | some l =>
              if byteAt f.body 1 = l then s.chip.link.presence[f.src].missed
              else min (s.chip.link.presence[f.src].missed + (byteAt f.body 1 - l - 1).toNat) 65535 } ∧
      (∀ x, x ≠ f.src → t.chip.link.presence[x] = s.chip.link.presence[x]) ∧
      (if f.src < s.chip.self ∧ (∀ y, y < f.src → s.chip.link.presence[y].present = false) ∧ s.chip.link.wire = none then
        t.chip.link.nextPoint = .running (s.chip.now + (s.chip.self.val - f.src.val) * (s.chip.interval / 8))
      else t.chip.link.nextPoint = s.chip.link.nextPoint ∧ t.chip.link.lastPoint = s.chip.link.lastPoint) ∧
      t = { s with
        chip := { Chip.heardBase s.chip t.chip with
          link := { (Chip.heardBase s.chip t.chip).link with
            queues := s.chip.link.queues, nextPoint := t.chip.link.nextPoint, lastPoint := t.chip.link.lastPoint } } }) ∧
  ∀ (s : State) (f : HeardFrame), s.chip.validHere f .answer → s.chip.link.state = .synced →
    ∃ t, exec (.answerHeard f) s = .next t ∧
      t.chip.link.hold = .running (s.chip.now + 8 * s.chip.interval) ∧
      t.chip.link.presence[f.src] =
        { s.chip.link.presence[f.src] with
          present := true, countdown := .running (s.chip.now + 4 * s.chip.interval) } ∧
      (∀ x, x ≠ f.src → t.chip.link.presence[x] = s.chip.link.presence[x]) ∧
      t = { s with
        chip := { Chip.heardBase s.chip t.chip with
          link := { (Chip.heardBase s.chip t.chip).link with queues := s.chip.link.queues } } }) ∧
  (∀ (s : State) (d : Nat), s.chip.inReset = false → s.chip.link.state = .synced → s.chip.link.nextPoint = .running d →
    exec .beaconPoint s = .next { s with
      chip := { s.chip with
        now := max s.chip.now d,
        link := { s.chip.link with
          beaconCount := s.chip.link.beaconCount + 1, nextPoint := .running (d + s.chip.interval), lastPoint := some d,
          queues :=
            if s.chip.link.queues[(3 : Fin 4)].any Chip.isBeacon = false ∧
                (∀ w, s.chip.link.wire = some w → Chip.isBeacon w.frame = false) ∧ s.chip.link.queues[(3 : Fin 4)].length < 4 then
              s.chip.link.queues.set 3
                (s.chip.link.queues[(3 : Fin 4)] ++ [.beacon s.chip.self s.chip.link.beaconCount])
            else s.chip.link.queues } } })

/-- PRESENCE_EXPIRY: the peer is ABSENT, no feeder context anchored at it or with its tally addressed to it remains, every
anchor that had accepted its entries carries the feeder-lost flag, and every other context stands. It follows the model's
reading in logs 3, 11, 38 and 48. -/
def Obligations.AbsenceOrphansFeeders : Prop :=
  ∀ (s : State) (x : Station) (d : Nat), s.chip.inReset = false → s.chip.link.state = .synced →
    s.chip.link.presence[x].countdown = .running d → s.chip.tableOk →
    ∃ t, exec (.presenceExpiry x) s = .next t ∧
      t.chip.link.presence[x] =
        { s.chip.link.presence[x] with present := false, countdown := .stopped, lastBeacon := none } ∧
      (∀ y, y ≠ x → t.chip.link.presence[y] = s.chip.link.presence[y]) ∧ t.chip.fedTo x = [] ∧
      (∀ j ctx a, s.chip.anchor? j = some (ctx, a) →
        t.chip.anchor? j =
          let a' := { a with feederLost := a.feederLost || hasStation a.feeders x }
          some ({ ctx with role := .anchor a' }, a')) ∧
      (∀ j, j ∉ s.chip.fedTo x → s.chip.anchor? j = none → s.chip.slotKept t.chip j) ∧
      t = { s with
        chip := { Chip.settledBase s.chip t.chip with
          now := max s.chip.now d, intake := t.chip.intake, extFree := t.chip.extFree, pendFree := t.chip.pendFree,
          cache := t.chip.cache, retired := t.chip.retired, small := t.chip.small, large := t.chip.large,
          notice := { s.chip.notice with
            queue := t.chip.notice.queue, latches := t.chip.notice.latches, re := t.chip.notice.re, rb := t.chip.notice.rb },
          link := { s.chip.link with presence := t.chip.link.presence, queues := t.chip.link.queues } } }

/-! ## Anchoring -/

/-- CLAIM_HEARD and REASSERT_HEARD of a tag that no context holds: the claim cache holds the sender for the tag, the oldest
entry leaving a full cache, and a retired tag changes nothing. CLAIM_HEARD at an anchor that has sent its CLAIM or is settled:
the anchor stands, and a REASSERT joins class 0 unless one is queued and not begun or the class is full. It follows the model's
reading in log 9. -/
def Obligations.ClaimIsLearned : Prop :=
  (∀ (s : State) (f : HeardFrame) (k : FrameKind) (i : Instr),
    (k = .claim ∧ i = .claimHeard f) ∨ (k = .reassert ∧ i = .reassertHeard f) → s.chip.validHere f k → f.src ≠ 0 →
    Table.find (tagAt f.body 0) s.chip.slots = none →
    ∃ t, exec i s = .next t ∧
      (s.chip.isRetired (tagAt f.body 0) = true → t.chip.cache = s.chip.cache) ∧
      (s.chip.isRetired (tagAt f.body 0) = false →
        t.chip.cached (tagAt f.body 0) = some f.src ∧
        ((s.chip.cached (tagAt f.body 0)).isSome = true ∨ s.chip.cache.length < Config.cacheEntries →
          ∀ u, u ≠ tagAt f.body 0 → t.chip.cached u = s.chip.cached u) ∧
        (s.chip.cached (tagAt f.body 0) = none → Config.cacheEntries ≤ s.chip.cache.length →
          t.chip.cache = s.chip.cache.tail ++ [(tagAt f.body 0, f.src)])) ∧
      t = { s with
        chip := { Chip.heardBase s.chip t.chip with
          cache := t.chip.cache, link := { (Chip.heardBase s.chip t.chip).link with queues := s.chip.link.queues } } }) ∧
  (∀ (s : State) (f : HeardFrame) (i : Nat) (ctx : Context) (a : Anchor), s.chip.validHere f .claim → f.src ≠ 0 →
    Table.find (tagAt f.body 0) s.chip.slots = some (i, ctx) → s.chip.anchor? i = some (ctx, a) →
    a.state ≠ .claiming ∨ a.claimSent = true →
    ∃ t, exec (.claimHeard f) s = .next t ∧
      t.chip.link.queues = (if s.chip.isQueued 0 (Chip.isReassert (tagAt f.body 0)) = false ∧ s.chip.hasPlace 0 = true then
        s.chip.link.queues.set 0 (s.chip.link.queues[(0 : Fin 4)] ++ [.reassert (tagAt f.body 0)])
        else s.chip.link.queues) ∧
      t = { s with chip := { Chip.heardBase s.chip t.chip with cache := t.chip.cache } })

/-- CLAIM_HEARD at a CLAIMING context whose own CLAIM has not been sent, and REASSERT_HEARD at a CLAIMING context: the context
feeds the sender, and its provisional blocks are its first pending entries, in their order; every REASSERT of the tag that is
queued and not begun is withdrawn. In a FAULTED station the context is orphaned FAULTED instead: its ORPHANED notice counts the
BLOCK notices it wrote as a feeder and its provisional blocks, whose handles are recycled, and its tag is retired. CLAIM_HEARD
at a feeder context, and REASSERT_HEARD at one in RELEASE-WAIT: the claim cache apart, nothing changes. REASSERT_HEARD at a
FEEDING context: its sender is the anchor station, and entries and tally stand. It follows the model's reading in logs 9, 11,
12, 30 and 46. -/
def Obligations.RivalClaimConverts : Prop :=
  (∀ (s : State) (f : HeardFrame) (k : FrameKind) (cmd : Instr) (i : Nat) (ctx : Context) (a : Anchor),
    (k = .claim ∧ cmd = .claimHeard f ∧ a.claimSent = false) ∨ (k = .reassert ∧ cmd = .reassertHeard f) →
    s.chip.validHere f k → f.src ≠ 0 →
    Table.find (tagAt f.body 0) s.chip.slots = some (i, ctx) → s.chip.anchor? i = some (ctx, a) →
    s.chip.tableOk → a.state = .claiming → s.chip.cmd.mode ≠ .faulted →
    a.provisional.length < s.chip.pendFree →
    ∃ t ctx' f', exec cmd s = .next t ∧ t.chip.feeder? i = some (ctx', f') ∧ f'.anchor = f.src ∧
      f'.state = .feeding ∧ ctx'.role = .feeder f' ∧ ctx'.sizeCode = ctx.sizeCode ∧ f'.noticed = 0 ∧
      itemsOf f'.entries = a.provisional ∧ ctx'.tag = ctx.tag ∧
      ctx'.cover = ctx.cover ∧ ctx'.idle = .running (s.chip.now + s.chip.idleTime) ∧
      t.chip.pendFree = s.chip.pendFree - a.provisional.length - (if a.close.isSome then 1 else 0) ∧
      t.chip.link.queues[(0 : Fin 4)] = s.chip.link.queues[(0 : Fin 4)].take (s.chip.onWire 0) ++
        (s.chip.link.queues[(0 : Fin 4)].drop (s.chip.onWire 0)).filter (fun g => g ≠ .reassert ctx.tag) ∧
      (Table.firstOwed s.chip.slots = none → a.claimSent = false →
        t.chip.link.queues[(1 : Fin 4)] = s.chip.withoutClaim ctx.tag ∧ t.chip.link.wire = s.chip.wireAfter ctx.tag) ∧
      (a.claimSent = true →
        t.chip.link.queues[(1 : Fin 4)] = s.chip.link.queues[(1 : Fin 4)] ∧ t.chip.link.wire = s.chip.link.wire) ∧
      t.chip.notice.rb = s.chip.notice.rb ∧ t.chip.notice.re = s.chip.notice.re ∧ s.chip.noticed t.chip [] ∧
      (Table.firstOwed s.chip.slots = none → s.chip.othersKept t.chip i) ∧
      t = { s with
        chip := { Chip.heardSettledBase s.chip t.chip with
          intake := t.chip.intake, cache := t.chip.cache, pendFree := t.chip.pendFree,
          link := { (Chip.heardSettledBase s.chip t.chip).link with wire := t.chip.link.wire } } }) ∧
  (∀ (s : State) (f : HeardFrame) (k : FrameKind) (cmd : Instr) (i : Nat) (ctx : Context) (a : Anchor),
    (k = .claim ∧ cmd = .claimHeard f ∧ a.claimSent = false) ∨ (k = .reassert ∧ cmd = .reassertHeard f) →
    s.chip.validHere f k → f.src ≠ 0 →
    Table.find (tagAt f.body 0) s.chip.slots = some (i, ctx) → s.chip.anchor? i = some (ctx, a) →
    s.chip.tableOk → a.state = .claiming → s.chip.cmd.mode = .faulted →
    ∃ t, exec cmd s = .next t ∧ Table.get i t.chip.slots = none ∧
      s.chip.noticed t.chip [.orphaned ctx.tag .faulted a.noticed a.provisional.length] ∧
      s.chip.recycled t.chip a.provisional ∧ t.chip.notice.rb = s.chip.notice.rb - a.provisional.length ∧
      t.chip.notice.re = s.chip.notice.re - 1 ∧ t.chip.extFree = s.chip.extFree + ctx.cover.length ∧
      ctx.tag ∈ t.chip.retired ∧ t.chip.cached ctx.tag = none ∧
      (Table.firstOwed s.chip.slots = none → s.chip.othersKept t.chip i) ∧
      t = { s with
        chip := { Chip.heardSettledBase s.chip t.chip with
          intake := t.chip.intake, extFree := t.chip.extFree, cache := t.chip.cache, retired := t.chip.retired,
          small := t.chip.small, large := t.chip.large,
          notice := { s.chip.notice with
            queue := t.chip.notice.queue, latches := t.chip.notice.latches, re := t.chip.notice.re, rb := t.chip.notice.rb },
          link := { (Chip.heardSettledBase s.chip t.chip).link with wire := t.chip.link.wire } } }) ∧
  (∀ (s : State) (f : HeardFrame) (i : Nat) (ctx : Context) (fd : Feeder), f.src ≠ 0 →
    Table.find (tagAt f.body 0) s.chip.slots = some (i, ctx) → s.chip.feeder? i = some (ctx, fd) → s.chip.tableOk →
    (∀ (k : FrameKind) (cmd : Instr),
      (k = .claim ∧ cmd = .claimHeard f) ∨ (k = .reassert ∧ cmd = .reassertHeard f ∧ fd.state = .releaseWait) →
      s.chip.validHere f k →
      ∃ t, exec cmd s = .next t ∧
        t = { s with
          chip := { Chip.heardBase s.chip t.chip with
            cache := t.chip.cache, link := { (Chip.heardBase s.chip t.chip).link with queues := s.chip.link.queues } } }) ∧
    (s.chip.validHere f .reassert → fd.state = .feeding →
      ∃ t, exec (.reassertHeard f) s = .next t ∧
        t.chip.slotIs i (some (.live { ctx with role := .feeder { fd with anchor := f.src } })) ∧
        s.chip.othersKept t.chip i ∧ s.chip.noticed t.chip [] ∧
        (s.chip.isRetired (tagAt f.body 0) = false → t.chip.cached (tagAt f.body 0) = some f.src) ∧
        (∀ q : Fin 4, q ≠ 2 → t.chip.link.queues[q] = s.chip.link.queues[q]) ∧
        t = { s with
          chip := { Chip.heardSettledBase s.chip t.chip with intake := t.chip.intake, cache := t.chip.cache } }))

/-- REASSERT_HEARD at an OPEN or CLOSING anchor, and RELEASE_HEARD at an anchor in any state: the object ends SPLIT, in CLAIMING
with its CLAIM withdrawn and its provisional blocks noticed first. ANCHOR_IDLE_EXPIRY of an anchor: the object ends STALLED, in
CLAIMING as well, in the same way. It follows the model's reading in logs 3, 9, 11 and 12. -/
def Obligations.AnchorEndsSplitOrStalled : Prop :=
  ((∀ (s : State) (f : HeardFrame) (i : Nat) (ctx : Context) (a : Anchor), s.chip.validHere f .reassert → f.src ≠ 0 →
    Table.find (tagAt f.body 0) s.chip.slots = some (i, ctx) → s.chip.anchor? i = some (ctx, a) → s.chip.tableOk →
    a.state ≠ .claiming →
    ∃ t, exec (.reassertHeard f) s = .next t ∧
      s.chip.ended t.chip i ctx a .split (a.close.map fun r => (r.length, r.fold)) ∧
      s.chip.othersKept t.chip i ∧
      t = { s with
        chip := { Chip.heardSettledBase s.chip t.chip with
          intake := t.chip.intake, extFree := t.chip.extFree, cache := t.chip.cache, retired := t.chip.retired,
          notice := { s.chip.notice with queue := t.chip.notice.queue, latches := t.chip.notice.latches, re := t.chip.notice.re } } }) ∧
  (∀ (s : State) (f : HeardFrame) (i : Nat) (ctx : Context) (a : Anchor), s.chip.validHere f .release → f.src ≠ 0 →
    Table.find (tagAt f.body 0) s.chip.slots = some (i, ctx) → s.chip.anchor? i = some (ctx, a) → s.chip.tableOk →
    let close := a.close.map fun r => (r.length, r.fold)
    ∃ t, exec (.releaseHeard f) s = .next t ∧
      (a.state ≠ .claiming → s.chip.ended t.chip i ctx a .split close) ∧
      (a.state = .claiming → s.chip.noneOwed ctx.tag → s.chip.claimEnded t.chip i ctx a .split close) ∧
      (a.state ≠ .claiming ∨ s.chip.noneOwed ctx.tag →
        s.chip.othersKept t.chip i ∧
        t = { s with
          chip := { Chip.heardSettledBase s.chip t.chip with
            intake := t.chip.intake, extFree := t.chip.extFree, cache := t.chip.cache, retired := t.chip.retired,
            link := { (Chip.heardSettledBase s.chip t.chip).link with
              wire := if a.state = .claiming then t.chip.link.wire else s.chip.link.wire },
            notice := { s.chip.notice with
              queue := t.chip.notice.queue, latches := t.chip.notice.latches, re := t.chip.notice.re,
              rb := if a.state = .claiming then t.chip.notice.rb else s.chip.notice.rb } } }))) ∧
  ((∀ (s : State) (i d : Nat) (ctx : Context) (a : Anchor), s.chip.inReset = false → s.chip.anchor? i = some (ctx, a) →
    s.chip.tableOk → a.state ≠ .claiming → ctx.idle = .running d →
    ∃ t, exec (.anchorIdleExpiry i) s = .next t ∧
      s.chip.ended t.chip i ctx a .stalled (a.close.map fun r => (r.length, r.fold)) ∧
      s.chip.othersKept t.chip i ∧
      t = { s with
        chip := { Chip.settledBase s.chip t.chip with
          now := max s.chip.now d, intake := t.chip.intake, extFree := t.chip.extFree, cache := t.chip.cache,
          retired := t.chip.retired,
          notice := { s.chip.notice with queue := t.chip.notice.queue, latches := t.chip.notice.latches, re := t.chip.notice.re } } }) ∧
  (∀ (s : State) (i d : Nat) (ctx : Context) (a : Anchor), s.chip.inReset = false → s.chip.anchor? i = some (ctx, a) →
    s.chip.tableOk → a.state = .claiming → ctx.idle = .running d → s.chip.noneOwed ctx.tag →
    ∃ t, exec (.anchorIdleExpiry i) s = .next t ∧
      s.chip.claimEnded t.chip i ctx a .stalled (a.close.map fun r => (r.length, r.fold)) ∧ s.chip.othersKept t.chip i ∧
      t = { s with chip := { Chip.claimEndedBase s.chip t.chip with now := max s.chip.now d } }))

/-- RELEASE_HEARD at a FEEDING context with no tally outstanding: the context is freed without a notice, its entries return and
their handles are recycled, and the tag is retired and forgotten. With a tally outstanding its unsent entries go the same way
and it waits in RELEASE-WAIT, its idle timer stopped; in RELEASE-WAIT, and where no context holds the tag, the tag is retired
and forgotten and nothing else follows. FEEDER_IDLE_EXPIRY in FEEDING: with no entry and no tally outstanding the context is
freed silently and its tag is not retired; with either, the timer restarts. It follows the model's reading in logs 3, 9 and 11.
-/
def Obligations.FreedFeederIsSilent : Prop :=
  ((∀ (s : State) (f : HeardFrame) (i : Nat) (ctx : Context) (fd : Feeder), s.chip.validHere f .release → f.src ≠ 0 →
    Table.find (tagAt f.body 0) s.chip.slots = some (i, ctx) → s.chip.feeder? i = some (ctx, fd) → s.chip.tableOk →
    fd.state = .feeding → fd.tally = none →
    ∃ t, exec (.releaseHeard f) s = .next t ∧ Table.get i t.chip.slots = none ∧
      tagAt f.body 0 ∈ t.chip.retired ∧ t.chip.cached (tagAt f.body 0) = none ∧
      t.chip.pendFree = s.chip.pendFree + fd.entries.length ∧ t.chip.extFree = s.chip.extFree + ctx.cover.length ∧
      t.chip.notice.re = s.chip.notice.re - 1 ∧ t.chip.notice.rb = s.chip.notice.rb - (itemsOf fd.entries).length ∧
      (∀ cls, t.chip.pool cls = { s.chip.pool cls with
        stack := (((itemsOf fd.entries).map BlockItem.handle).filter fun h => h.cls = cls).reverse ++
          (s.chip.pool cls).stack }) ∧
      s.chip.noticed t.chip [] ∧ s.chip.othersKept t.chip i ∧
      t = { s with
        chip := { Chip.heardSettledBase s.chip t.chip with
          intake := t.chip.intake, extFree := t.chip.extFree, pendFree := t.chip.pendFree, cache := t.chip.cache,
          retired := t.chip.retired, small := t.chip.small, large := t.chip.large,
          notice := { s.chip.notice with
            queue := t.chip.notice.queue, latches := t.chip.notice.latches, re := t.chip.notice.re, rb := t.chip.notice.rb } } }) ∧
  (∀ (s : State) (f : HeardFrame) (i : Nat) (ctx : Context) (fd : Feeder), s.chip.validHere f .release → f.src ≠ 0 →
    Table.find (tagAt f.body 0) s.chip.slots = some (i, ctx) → s.chip.feeder? i = some (ctx, fd) → s.chip.tableOk →
    ∃ t, exec (.releaseHeard f) s = .next t ∧ tagAt f.body 0 ∈ t.chip.retired ∧ t.chip.cached (tagAt f.body 0) = none ∧
      (∀ y, fd.state = .feeding → fd.tally = some y →
        let unsent := fd.entries.drop y.size
        Table.get i t.chip.slots = some (.live { ctx with
          idle := .stopped, role := .feeder { fd with state := .releaseWait, entries := fd.entries.take y.size } }) ∧
        s.chip.othersKept t.chip i ∧ s.chip.noticed t.chip [] ∧ s.chip.recycled t.chip (itemsOf unsent) ∧
        t.chip.pendFree = s.chip.pendFree + unsent.length ∧ t.chip.notice.rb = s.chip.notice.rb - (itemsOf unsent).length ∧
        t = { s with
          chip := { Chip.heardSettledBase s.chip t.chip with
            intake := t.chip.intake, pendFree := t.chip.pendFree, cache := t.chip.cache, retired := t.chip.retired,
            small := t.chip.small, large := t.chip.large,
            notice := { s.chip.notice with
              queue := t.chip.notice.queue, latches := t.chip.notice.latches, rb := t.chip.notice.rb } } }) ∧
      (fd.state = .releaseWait →
        (∀ j, s.chip.slotKept t.chip j) ∧ s.chip.noticed t.chip [] ∧
        t = { s with
          chip := { Chip.heardSettledBase s.chip t.chip with
            intake := t.chip.intake, cache := t.chip.cache, retired := t.chip.retired } })) ∧
  (∀ (s : State) (f : HeardFrame), s.chip.validHere f .release → f.src ≠ 0 → Table.find (tagAt f.body 0) s.chip.slots = none →
    ∃ t, exec (.releaseHeard f) s = .next t ∧ tagAt f.body 0 ∈ t.chip.retired ∧ t.chip.cached (tagAt f.body 0) = none ∧
      t = { s with
        chip := { Chip.heardBase s.chip t.chip with
          cache := t.chip.cache, retired := t.chip.retired,
          link := { (Chip.heardBase s.chip t.chip).link with queues := s.chip.link.queues } } })) ∧
  (∀ (s : State) (i d : Nat) (ctx : Context) (fd : Feeder), s.chip.inReset = false → s.chip.feeder? i = some (ctx, fd) →
    s.chip.tableOk → fd.state = .feeding → ctx.idle = .running d →
    ∃ t, exec (.feederIdleExpiry i) s = .next t ∧ t.chip.now = max s.chip.now d ∧
      (fd.entries = [] → fd.tally = none →
        Table.get i t.chip.slots = none ∧ t.chip.extFree = s.chip.extFree + ctx.cover.length ∧
        t.chip.notice.re = s.chip.notice.re - 1 ∧ s.chip.noticed t.chip [] ∧ s.chip.othersKept t.chip i ∧
        t = { s with
          chip := { Chip.settledBase s.chip t.chip with
            now := max s.chip.now d, intake := t.chip.intake, extFree := t.chip.extFree,
            notice := { s.chip.notice with
              queue := t.chip.notice.queue, latches := t.chip.notice.latches, re := t.chip.notice.re } } }) ∧
      (fd.entries ≠ [] ∨ fd.tally ≠ none →
        t = { s with chip := { s.chip with slots := t.chip.slots, now := t.chip.now } } ∧
        (∀ j, j ≠ i → Table.get j t.chip.slots = Table.get j s.chip.slots) ∧
        t.chip.feeder? i = some ({ ctx with idle := .running (max s.chip.now d + s.chip.idleTime) }, fd)))

/-! ## Feeding and verdicts -/

/-- TALLY_RECEIVED, addressed to self, well formed, with a free class-0 place: exactly one VERDICT is queued, for the tally's
tag and sequence number. A tally that the verdict memory holds is answered with the recorded verdict and changes nothing else;
any other is answered HOLD at a CLAIMING context, with one code for each entry at an OPEN or CLOSING anchor, MOVED at a feeder,
and RETIRED, MOVED or UNKNOWN where no context holds the tag, and every verdict but HOLD is recorded. TALLY_RECEIVED with class
0 full: the tally is discarded unprocessed, and TALLY-UNTAKEN advances. It follows the model's reading in logs 9, 14 and 26. -/
def Obligations.TallyIsAnsweredOnce : Prop :=
  (∀ (s : State) (f : HeardFrame) (b : TallyBody), s.chip.validHere f .tally → f.src ≠ 0 →
    stationOf (byteAt f.body 9) = some s.chip.self → parseTally s.chip.self f.body = some b → s.chip.hasPlace 0 = true →
    s.chip.tableOk →
    ∃ t v, exec (.tallyReceived f) s = .next t ∧
      t.chip.link.queues[(0 : Fin 4)] = s.chip.link.queues[(0 : Fin 4)] ++ [.verdict v] ∧ v.tag = b.tag ∧ v.seq = b.seq ∧
      (∀ m, s.chip.verdicts[f.src] = some m → m.seq = b.seq → m.tag = b.tag →
        v = m ∧ t = { s with chip := Chip.heardBase s.chip t.chip }) ∧
      ((∀ m, s.chip.verdicts[f.src] = some m → m.seq ≠ b.seq ∨ m.tag ≠ b.tag) →
        v.dest = f.src ∧
        (∀ i ctx a, Table.find b.tag s.chip.slots = some (i, ctx) → ctx.role = .anchor a → a.state = .claiming →
          v.verdict = .hold ∧ t = { s with chip := Chip.heardBase s.chip t.chip }) ∧
        (∀ i ctx a, Table.find b.tag s.chip.slots = some (i, ctx) → ctx.role = .anchor a → a.state ≠ .claiming →
          ∃ codes, v.verdict = .perEntry codes ∧ codes.length = b.entries.length) ∧
        (∀ i ctx fd, Table.find b.tag s.chip.slots = some (i, ctx) → ctx.role = .feeder fd → v.verdict = .moved fd.anchor) ∧
        (Table.find b.tag s.chip.slots = none →
          v.verdict = if s.chip.isRetired b.tag then .retired else
            match s.chip.cached b.tag with
            | some y => .moved y
            | none => .unknown) ∧
        (v.verdict ≠ .hold → t.chip.verdicts[f.src] = some v)) ∧
      (∀ x, x ≠ f.src → t.chip.verdicts[x] = s.chip.verdicts[x]) ∧
      (∀ q : Fin 4, 2 ≤ q → t.chip.link.queues[q] = s.chip.link.queues[q]) ∧
      (∀ j, (∀ ctx, Table.find b.tag s.chip.slots ≠ some (j, ctx)) → Table.get j t.chip.slots = Table.get j s.chip.slots) ∧
      t = { s with
        chip := { Chip.heardBase s.chip t.chip with
          cmd := { s.chip.cmd with counters := t.chip.cmd.counters }, slots := t.chip.slots, verdicts := t.chip.verdicts,
          extFree := t.chip.extFree, cache := t.chip.cache, retired := t.chip.retired,
          notice := { s.chip.notice with queue := t.chip.notice.queue, latches := t.chip.notice.latches, re := t.chip.notice.re } } }) ∧
  (∀ (s : State) (f : HeardFrame) (b : TallyBody), s.chip.validHere f .tally → f.src ≠ 0 →
    stationOf (byteAt f.body 9) = some s.chip.self → parseTally s.chip.self f.body = some b → s.chip.hasPlace 0 = false →
    ∃ t, exec (.tallyReceived f) s = .next t ∧ t.chip.link.queues = s.chip.link.queues ∧
      t = { s with
        chip := { Chip.heardBase s.chip t.chip with
          cmd := { s.chip.cmd with
            counters := s.chip.cmd.counters.set 12 (countUp s.chip.cmd.counters[(12 : Fin 16)]) } } })

/-- TALLY_RECEIVED at an OPEN or CLOSING anchor, not held by the verdict memory: the entries are judged in order, each against
the context as the one before left it, and their codes are the verdict; once the object has ended every later entry is ENDED. A
BLOCK entry that fails the shape checks ends the object and is ENDED; a covered one is DUPLICATE, one that finds no extent
REFUSED, each on its count; any other is ACCEPT: it enters list, sum, count and short mark, the sender joins the feeder set, and
the object is completed, or its front tested. A CLOSE entry is ACCEPT when it is recorded, after which the object is completed
or its front tested, DUPLICATE when it equals the recorded one, and ENDED when it ends the object. It follows the model's
reading in logs 9, 14, 26 and 49. -/
def Obligations.TallyEntriesAreJudged : Prop :=
  (∀ (s : State) (f : HeardFrame) (b : TallyBody) (i : Nat) (ctx : Context) (a : Anchor), s.chip.validHere f .tally → f.src ≠ 0 →
    stationOf (byteAt f.body 9) = some s.chip.self → parseTally s.chip.self f.body = some b → s.chip.hasPlace 0 = true →
    (∀ m, s.chip.verdicts[f.src] = some m → m.seq ≠ b.seq ∨ m.tag ≠ b.tag) →
    Table.find b.tag s.chip.slots = some (i, ctx) → ctx.role = .anchor a → a.state ≠ .claiming →
    let r := Chip.judgeEntries i f.src b.sizeCode b.entries (s.chip.frameEnds.validFrom f.src)
    let v : VerdictBody := { tag := b.tag, seq := b.seq, dest := f.src, verdict := .perEntry r.2 }
    exec (.tallyReceived f) s = .next { s with chip := (r.1.push 0 (.verdict v)).setVerdict f.src v }) ∧
  (∀ (c : Chip) (i k : Nat) (x : Station) (e : TallyEntry) (es : List TallyEntry),
    let one := Chip.judgeEntries i x k [e] c
    let rest := Chip.judgeEntries i x k es one.1
    Chip.judgeEntries i x k (e :: es) c = (rest.1, one.2 ++ rest.2) ∧
      (c.anchor? i = none → Chip.judgeEntries i x k es c = (c, es.map fun _ => .ended))) ∧
  (∀ (c : Chip) (i k n len sum : Nat) (index : BitVec 24) (x : Station) (ctx : Context) (a : Anchor),
    c.anchor? i = some (ctx, a) → a.state ≠ .claiming → c.tableOk →
    let r := Chip.judgeEntries i x k [.block n len sum index] c
    let cover := Coverage.insert n ctx.cover
    let a' : Anchor := { a with
      sum := addFold a.sum (foldReduce sum), accepted := a.accepted + 1,
      shortMark := if len < blockSize ctx.sizeCode then some (n, len) else a.shortMark, feeders := addStation a.feeders x }
    let ctx' : Context := { ctx with cover := cover, idle := .running (c.now + c.idleTime), role := .anchor a' }
    let mid : Chip := { c with
      slots := Table.put i (.live ctx') c.slots, extFree := c.extFree + ctx.cover.length - cover.length }
    match shapeFault ctx.sizeCode ctx.cover a k n len with
    | some o => r.2 = [.ended] ∧ c.endedInTally r.1 i ctx a o (a.close.map fun q => (q.length, q.fold))
    | none =>
      if Coverage.holds ctx.cover n = true then
        r = ({ c with slots := Table.put i (.live { ctx with peerDup := countUp ctx.peerDup }) c.slots }, [.duplicate])
      else if noExtent ctx.cover n c.extFree c.params.extentCap = true then
        r = ({ c with slots := Table.put i (.live { ctx with refused := countUp ctx.refused }) c.slots }, [.refused])
      else r.2 = [.accept] ∧ mid.completedOrTested r.1 i ctx' a') ∧
  (∀ (c : Chip) (i k l e kind : Nat) (x : Station) (ctx : Context) (a : Anchor), c.anchor? i = some (ctx, a) →
  a.state ≠ .claiming →
    c.tableOk →
    let r := Chip.judgeEntries i x k [.close l e kind] c
    let new := closeRecord l (foldReduce e) kind
    let idle := Timer.running (c.now + c.idleTime)
    match a.close with
    | some q =>
      if q.length = l ∧ q.fold = foldReduce e ∧ kind = ctx.sizeCode then
        r = ({ c with slots := Table.put i (.live { ctx with idle := idle, peerDup := countUp ctx.peerDup }) c.slots },
          [.duplicate])
      else r.2 = [.ended] ∧ c.endedInTally r.1 i ctx a .closeConflict (some (q.length, q.fold))
    | none =>
      match closeFault ctx.sizeCode ctx.cover a kind new with
      | some o => r.2 = [.ended] ∧ c.endedInTally r.1 i ctx a o (some (l, foldReduce e))
      | none =>
        let a' : Anchor := { a with close := some new, state := .closing }
        let ctx' : Context := { ctx with idle := idle, role := .anchor a' }
        r.2 = [.accept] ∧
          Chip.completedOrTested { c with slots := Table.put i (.live ctx') c.slots } r.1 i ctx' a')

/-- VERDICT_RECEIVED, per-entry, every code ACCEPT, at a FEEDING context whose tally holds BLOCK entries alone: their BLOCK
notices are queued in entry order in their block reservations, naming the answering station, and the entries return to the pool.
It follows the model's reading in logs 9 and 11. -/
def Obligations.AcceptedEntriesAreNoticed : Prop :=
  ∀ (s : State) (f : HeardFrame) (i : Nat) (ctx : Context) (fd : Feeder) (y : Tally) (items : List BlockItem),
    s.chip.validHere f .verdict → stationOf (byteAt f.body 9) = some s.chip.self →
    s.chip.outstanding f.src = some (i, ctx, fd, y) → y.dest = f.src → fd.state = .feeding →
    (fd.entries.take y.size).map Entry.item? = items.map some → items.length = y.size → y.seq = byteAt f.body 8 →
    ctx.tag = tagAt f.body 0 →
    parseVerdict f.body = some (.perEntry (List.replicate y.size .accept)) → s.chip.tableOk →
    ∃ t ctx' fd', exec (.verdictReceived f) s = .next t ∧
      s.chip.noticed t.chip (items.map fun b => .block ctx.tag f.src b) ∧
      t.chip.notice.rb = s.chip.notice.rb - y.size ∧ t.chip.pendFree = s.chip.pendFree + y.size ∧
      t.chip.feeder? i = some (ctx', fd') ∧
      fd' = { fd with
        entries := fd.entries.drop y.size, noticed := fd.noticed + y.size, tally := fd'.tally, moved := fd'.moved } ∧
      ctx' = { ctx with idle := .running (s.chip.now + s.chip.idleTime), role := .feeder fd' } ∧ s.chip.othersKept t.chip i ∧
      t = { s with
        chip := { Chip.heardSettledBase s.chip t.chip with
          intake := t.chip.intake, pendFree := t.chip.pendFree,
          notice := { s.chip.notice with queue := t.chip.notice.queue, latches := t.chip.notice.latches, rb := t.chip.notice.rb },
          link := { (Chip.heardSettledBase s.chip t.chip).link with wire := t.chip.link.wire } } }

/-- VERDICT_RECEIVED that matches the tally outstanding to its sender. Per-entry codes: ACCEPT queues the block's notice,
DUPLICATE, REFUSED and ENDED recycle its handle and release its reservation, DUPLICATE and REFUSED counting and REFUSED leaving
the advisory list; the entries return, and a RELEASE-WAIT context is freed. HOLD: the tally is HOLDING and the hold wait starts.
MOVED to a station that is PRESENT, not self and not visited: that is the anchor station, the entries are unsent and the visited
set is kept. RETIRED: every entry is recycled, the tag retired and the context freed without a notice. UNKNOWN, or a MOVED that
is not followed: a RELEASE-WAIT context is orphaned ANCHOR-LOST, and a FEEDING one becomes a CLAIMING anchor whose blocks, at
most 8 and full, are provisional and whose CLAIM is offered. A VERDICT addressed to self that does not match, or whose codes do
not number the tally's entries, is counted VERDICT-STALE and ignored, and one addressed to another station is not counted. It
follows the model's reading in logs 9, 11, 30 and 47. -/
def Obligations.VerdictsActAtFeeder : Prop :=
  (∀ (s : State) (f : HeardFrame) (i : Nat) (ctx : Context) (fd : Feeder) (y : Tally) (v : Verdict),
    s.chip.validHere f .verdict → stationOf (byteAt f.body 9) = some s.chip.self →
    s.chip.outstanding f.src = some (i, ctx, fd, y) → y.dest = f.src → s.chip.tableOk → y.size ≤ fd.entries.length →
    y.seq = byteAt f.body 8 → ctx.tag = tagAt f.body 0 → parseVerdict f.body = some v → Chip.countFits v y = true →
    let idle := if fd.state = .feeding then Timer.running (s.chip.now + s.chip.idleTime) else ctx.idle
    let follows (x : Station) : Bool := (s.chip.isPresent x || (x = f.src && s.chip.synced)) && x ≠ s.chip.self && !hasStation y.visited x
    let lost : Prop := v = .unknown ∨ ∃ x, v = .moved x ∧ follows x = false
    let items := itemsOf fd.entries
    ∃ t, exec (.verdictReceived f) s = .next t ∧
      (∀ codes, v = .perEntry codes → ctx.peerDup ≤ 65535 → ctx.refused ≤ 65535 →
        let ps := (fd.entries.take y.size).zip codes
        let accepted := ps.filterMap fun p => if p.2 = .accept then p.1.item? else none
        let given := ps.filterMap fun p => if p.2 = .accept then none else p.1.item?
        let refused := ps.filterMap fun p => if p.2 = .refused then p.1.item? else none
        let duplicates := (ps.filter fun p => p.2 = .duplicate).length
        let cover := refused.foldl (fun l b => Coverage.remove b.block l) ctx.cover
        s.chip.othersKept t.chip i ∧ s.chip.noticed t.chip (accepted.map fun b => .block ctx.tag f.src b) ∧
        s.chip.recycled t.chip given ∧
        t.chip.notice.rb = s.chip.notice.rb - (accepted.length + given.length) ∧ t.chip.pendFree = s.chip.pendFree + y.size ∧
        (refused = [] ∨ (refused.length ≤ s.chip.extFree ∧ ctx.cover.length + refused.length ≤ s.chip.params.extentCap) →
          fd.state = .feeding →
          t.chip.slotIs i (some (.live { ctx with
            cover := cover, peerDup := countAdd ctx.peerDup duplicates, refused := countAdd ctx.refused refused.length,
            idle := idle,
            role := .feeder { fd with
              entries := fd.entries.drop y.size, noticed := fd.noticed + accepted.length, tally := none } })) ∧
          t.chip.extFree = s.chip.extFree + ctx.cover.length - cover.length ∧ t.chip.notice.re = s.chip.notice.re) ∧
        (refused = [] ∨ (refused.length ≤ s.chip.extFree ∧ ctx.cover.length + refused.length ≤ s.chip.params.extentCap) →
          fd.state = .releaseWait →
          Table.get i t.chip.slots = none ∧ t.chip.extFree = s.chip.extFree + ctx.cover.length ∧
          t.chip.notice.re = s.chip.notice.re - 1)) ∧
      (v = .hold →
        Table.get i t.chip.slots = some (.live { ctx with
          idle := idle,
          role := .feeder { fd with
            tally := some { y with stage := .holding, timer := s.chip.startSynced s.chip.params.verdictTimeout } } }) ∧
        s.chip.othersKept t.chip i ∧ s.chip.noticed t.chip [] ∧ t.chip.notice.rb = s.chip.notice.rb ∧
        t.chip.pendFree = s.chip.pendFree) ∧
      (∀ x, v = .moved x → follows x = true →
        t.chip.slotIs i (some (.live { ctx with
          idle := idle, role := .feeder { fd with anchor := x, tally := none, moved := some y.visited } })) ∧
        (x ≠ f.src → t.chip.pair[f.src] ≠ some i) ∧ s.chip.othersKept t.chip i ∧ s.chip.noticed t.chip [] ∧
        t.chip.notice.rb = s.chip.notice.rb ∧
        t.chip.pendFree = s.chip.pendFree) ∧
      (v = .retired ∨ (lost ∧ fd.state = .releaseWait) →
        Table.get i t.chip.slots = none ∧ s.chip.othersKept t.chip i ∧ ctx.tag ∈ t.chip.retired ∧
        t.chip.cached ctx.tag = none ∧
        s.chip.noticed t.chip (if v = .retired then [] else [.orphaned ctx.tag .anchorLost fd.noticed items.length]) ∧
        s.chip.recycled t.chip items ∧ t.chip.notice.rb = s.chip.notice.rb - items.length ∧
        t.chip.notice.re = s.chip.notice.re - 1 ∧ t.chip.pendFree = s.chip.pendFree + fd.entries.length ∧
        t.chip.extFree = s.chip.extFree + ctx.cover.length) ∧
      (lost → fd.state = .feeding → fd.entries.map Entry.item? = items.map some → items.length ≤ 8 →
        (∀ b ∈ items, b.length = blockSize ctx.sizeCode) → (items.map BlockItem.block).Nodup →
        items.length ≤ s.chip.params.extentCap → items.length ≤ s.chip.extFree + ctx.cover.length →
        let cover := items.foldl (fun l b => Coverage.insert b.block l) []
        Table.get i t.chip.slots = some (.live { ctx with
          cover := cover, idle := .running (s.chip.now + s.chip.idleTime),
          role := .anchor
            { state := .claiming, accepted := items.length, sum := items.foldl (fun n b => addFold n b.sum) 0, close := none,
              shortMark := none, lastFront := 0, noticed := fd.noticed, provisional := items, feeders := 0,
              feederLost := false, claimOwed := !s.chip.hasPlace 1, claimSent := false, settle := .stopped } }) ∧
        t.chip.link.queues[(1 : Fin 4)] =
          s.chip.link.queues[(1 : Fin 4)] ++ (if s.chip.hasPlace 1 then [.claim ctx.tag] else []) ∧
        s.chip.othersKept t.chip i ∧ s.chip.noticed t.chip [] ∧ t.chip.notice.rb = s.chip.notice.rb ∧
        t.chip.notice.re = s.chip.notice.re ∧ t.chip.pendFree = s.chip.pendFree + items.length ∧
        t.chip.extFree = s.chip.extFree + ctx.cover.length - cover.length) ∧
      t = { s with
        chip := { Chip.heardSettledBase s.chip t.chip with
          intake := t.chip.intake, extFree := t.chip.extFree, pendFree := t.chip.pendFree, cache := t.chip.cache,
          retired := t.chip.retired, small := t.chip.small, large := t.chip.large,
          notice := { s.chip.notice with
            queue := t.chip.notice.queue, latches := t.chip.notice.latches, re := t.chip.notice.re, rb := t.chip.notice.rb },
          link := { (Chip.heardSettledBase s.chip t.chip).link with wire := t.chip.link.wire } } }) ∧
  (∀ (s : State) (f : HeardFrame), s.chip.validHere f .verdict →
    ∃ t, exec (.verdictReceived f) s = .next t ∧
      (stationOf (byteAt f.body 9) ≠ some s.chip.self →
        t = { s with
          chip := { Chip.heardBase s.chip t.chip with
            link := { (Chip.heardBase s.chip t.chip).link with queues := s.chip.link.queues } } }) ∧
      (stationOf (byteAt f.body 9) = some s.chip.self →
        (∀ i ctx fd y v, s.chip.outstanding f.src = some (i, ctx, fd, y) → parseVerdict f.body = some v →
          y.seq ≠ byteAt f.body 8 ∨ ctx.tag ≠ tagAt f.body 0 ∨ Chip.countFits v y = false) →
        t = { s with
          chip := { Chip.heardBase s.chip t.chip with
            cmd := s.chip.counted 13,
            link := { (Chip.heardBase s.chip t.chip).link with queues := s.chip.link.queues } } }))

/-- BATCH_DELAY_EXPIRY of the one feeder anchored at station `x`, link SYNCED and pair slot free: a tally of its first entries,
at most 8, with x's next sequence number and send count 1 is outstanding, the number has advanced by one, and its TALLY frame
has joined class 2. It follows the model's reading in logs 3, 11, 13 and 43. -/
def Obligations.DueFeederFormsTally : Prop :=
  ∀ (s : State) (i : Nat) (ctx : Context) (fd : Feeder) (e : Entry), s.chip.inReset = false → s.chip.link.state = .synced →
    s.chip.feeder? i = some (ctx, fd) → s.chip.tableOk → fd.state = .feeding → fd.tally = none → fd.entries.head? = some e →
    s.chip.pair[fd.anchor] = none →
    (∀ j c' f', j ≠ i → s.chip.feeder? j = some (c', f') → f'.anchor ≠ fd.anchor) →
    let y : Tally :=
      { dest := fd.anchor, seq := s.chip.nextSeq[fd.anchor], size := min fd.entries.length 8, sends := 1,
        visited := addStation (fd.moved.getD 0) fd.anchor, stage := .queued, timer := .stopped }
    let fd' : Feeder := { fd with tally := some y, moved := none }
    let frame : Frame := .tally
      { tag := ctx.tag, seq := y.seq, dest := fd.anchor, sizeCode := ctx.sizeCode, entries := (fd.entries.take 8).map Chip.tallyEntry }
    ∃ t, exec (.batchDelayExpiry i) s = .next t ∧
      t.chip.feeder? i = some ({ ctx with role := .feeder fd' }, fd') ∧
      t.chip.nextSeq[fd.anchor] = s.chip.nextSeq[fd.anchor] + 1 ∧ t.chip.pair[fd.anchor] = some i ∧
      s.chip.noticed t.chip [] ∧ s.chip.othersKept t.chip i ∧
      (∀ q : Fin 4, q ≠ 2 → t.chip.link.queues[q] = s.chip.link.queues[q]) ∧
      (s.chip.link.queues[(2 : Fin 4)] = [] → frame ∈ t.chip.link.queues[(2 : Fin 4)]) ∧
      ((∀ j c' f', j ≠ i → s.chip.feeder? j = some (c', f') → f'.tally ≠ none ∨ f'.entries = []) → s.chip.hasPlace 2 = true →
        t.chip.link.queues[(2 : Fin 4)] = s.chip.link.queues[(2 : Fin 4)] ++ [frame]) ∧
      t = { s with
        chip := { Chip.settledBase s.chip t.chip with
          now := max s.chip.now (e.joined + s.chip.params.batchDelay), intake := t.chip.intake } }

/-! ## Timers of the object table -/

/-- SETTLE_EXPIRY of a CLAIMING context with no close recorded: its provisional blocks are noticed in list order, naming self,
the state is OPEN, the front is tested against the room there is, and the accepted count, sum and coverage stand. With a close
recorded the state is CLOSING, and the object whose coverage is complete ends VERIFIED or MISMATCH, without a FRONT test. It
follows the model's reading in logs 3 and 11. -/
def Obligations.SettledClaimNotices : Prop :=
  (∀ (s : State) (i d : Nat) (ctx : Context) (a : Anchor), s.chip.inReset = false → s.chip.anchor? i = some (ctx, a) →
    a.state = .claiming → a.settle = .running d → a.close = none →
    a.provisional.length ≤ s.chip.notice.rb → s.chip.tableOk →
    ∃ t, exec (.settleExpiry i) s = .next t ∧
      (∃ (fronts : List Notice) (last : Nat),
        s.chip.noticed t.chip (a.provisional.map (.block ctx.tag s.chip.self) ++ fronts) ∧
        s.chip.frontTested t.chip ctx.tag (Coverage.front ctx.cover) a.lastFront fronts last ∧
        t.chip.anchor? i =
          let a' := { a with state := .opened, provisional := [], settle := .stopped, lastFront := last }
          some ({ ctx with role := .anchor a' }, a')) ∧
      t.chip.notice.rb = s.chip.notice.rb - a.provisional.length ∧ s.chip.othersKept t.chip i ∧
      t = { s with
        chip := { Chip.settledBase s.chip t.chip with
          now := max s.chip.now d, intake := t.chip.intake, cmd := t.chip.cmd,
          notice := { s.chip.notice with queue := t.chip.notice.queue, latches := t.chip.notice.latches, rb := t.chip.notice.rb } } }) ∧
  (∀ (s : State) (i d : Nat) (ctx : Context) (a : Anchor) (r : CloseRec), s.chip.inReset = false →
    s.chip.anchor? i = some (ctx, a) → a.state = .claiming → a.settle = .running d → a.close = some r →
    a.provisional.length ≤ s.chip.notice.rb → s.chip.tableOk →
    let blocks : List Notice := a.provisional.map (.block ctx.tag s.chip.self)
    let mid : Chip := { s.chip with
      now := max s.chip.now d,
      notice := { s.chip.notice with
        queue := s.chip.notice.queue ++ blocks, rb := s.chip.notice.rb - a.provisional.length } }
    ∃ t, exec (.settleExpiry i) s = .next t ∧ s.chip.othersKept t.chip i ∧
      (Coverage.whole ctx.cover r.blocks = true →
        mid.ended t.chip i ctx a (if a.sum = r.fold then .verified else .mismatch) (some (r.length, r.fold)) ∧
          t = { s with chip := Chip.endedBase mid t.chip }) ∧
      (Coverage.whole ctx.cover r.blocks = false →
        (∃ (fronts : List Notice) (last : Nat),
          s.chip.noticed t.chip (blocks ++ fronts) ∧
          s.chip.frontTested t.chip ctx.tag (Coverage.front ctx.cover) a.lastFront fronts last ∧
          Table.get i t.chip.slots = some (.live { ctx with
            role := .anchor { a with state := .closing, provisional := [], settle := .stopped, lastFront := last } })) ∧
        t = { s with chip := { Chip.eventBase mid t.chip with cmd := t.chip.cmd } }))

/-- VERDICT_TIMER_EXPIRY in AWAITING: at send count 1 or 2 the tally is offered again with its number and entries and its send
count advances; at 3 the context is orphaned UNRESPONSIVE. HOLD_WAIT_EXPIRY in HOLDING: the same tally is offered again and is
QUEUED; its send count stands. It follows the model's reading in logs 3 and 11. -/
def Obligations.UnansweredTallyIsResent : Prop :=
  (∀ (s : State) (i d : Nat) (ctx : Context) (fd : Feeder) (y : Tally), s.chip.inReset = false →
    s.chip.feeder? i = some (ctx, fd) → s.chip.tableOk → fd.tally = some y → y.stage = .awaiting → y.timer = .running d →
    ∃ t, exec (.verdictTimerExpiry i) s = .next t ∧
      (y.sends < 3 →
        (t.chip.feeder? i =
          let fd' : Feeder := { fd with tally := some { y with sends := y.sends + 1, stage := .queued, timer := .stopped } }
          some ({ ctx with role := .feeder fd' }, fd')) ∧
        t.chip.link.queues = (if s.chip.hasPlace 2 then
          s.chip.link.queues.set 2 (s.chip.link.queues[(2 : Fin 4)] ++ [Chip.tallyFrame ctx fd y]) else s.chip.link.queues) ∧
        (∀ j, j ≠ i → Table.get j t.chip.slots = Table.get j s.chip.slots) ∧
        t = { s with
          chip := { s.chip with
            now := max s.chip.now d, slots := t.chip.slots, link := { s.chip.link with queues := t.chip.link.queues } } }) ∧
      (3 ≤ y.sends →
        s.chip.noticed t.chip [.orphaned ctx.tag .unresponsive fd.noticed (itemsOf fd.entries).length] ∧
        Table.get i t.chip.slots = none ∧ ctx.tag ∈ t.chip.retired ∧ t.chip.cached ctx.tag = none ∧
        t.chip.pendFree = s.chip.pendFree + fd.entries.length ∧ t.chip.extFree = s.chip.extFree + ctx.cover.length ∧
        t.chip.notice.re = s.chip.notice.re - 1 ∧ t.chip.notice.rb = s.chip.notice.rb - (itemsOf fd.entries).length ∧
        (∀ cls, t.chip.pool cls = { s.chip.pool cls with
          stack := (((itemsOf fd.entries).map BlockItem.handle).filter fun h => h.cls = cls).reverse ++
            (s.chip.pool cls).stack }) ∧
        s.chip.othersKept t.chip i ∧
        t = { s with
          chip := { Chip.settledBase s.chip t.chip with
            now := max s.chip.now d, intake := t.chip.intake, extFree := t.chip.extFree, pendFree := t.chip.pendFree,
            cache := t.chip.cache, retired := t.chip.retired, small := t.chip.small, large := t.chip.large,
            notice := { s.chip.notice with
              queue := t.chip.notice.queue, latches := t.chip.notice.latches, re := t.chip.notice.re, rb := t.chip.notice.rb } } })) ∧
  (∀ (s : State) (i d : Nat) (ctx : Context) (fd : Feeder) (y : Tally), s.chip.inReset = false →
    s.chip.feeder? i = some (ctx, fd) → fd.tally = some y → y.stage = .holding → y.timer = .running d →
    let fd' : Feeder := { fd with tally := some { y with stage := .queued, timer := .stopped } }
    ∃ t, exec (.holdWaitExpiry i) s = .next t ∧ t.chip.feeder? i = some ({ ctx with role := .feeder fd' }, fd') ∧
      t.chip.link.queues = (if s.chip.hasPlace 2 then
        s.chip.link.queues.set 2 (s.chip.link.queues[(2 : Fin 4)] ++ [Chip.tallyFrame ctx fd y]) else s.chip.link.queues) ∧
      (∀ j, j ≠ i → Table.get j t.chip.slots = Table.get j s.chip.slots) ∧
      t = { s with
        chip := { s.chip with
          now := max s.chip.now d, slots := t.chip.slots, link := { s.chip.link with queues := t.chip.link.queues } } })

/-! ## Commands -/

/-- A COMMAND whose number the command memory holds is not acted on: its held answer is queued again, identical, or ANSWER-LOST
advances. While the table is BUILDING or the station is RESTARTING, a new COMMAND of a known kind other than QUERY and COUNTERS
is answered BUSY and has no other effect: the command memory stands. A SETUP-PART index above 3 is BAD-COMMAND and is not meant.
A new COMMAND that another answer stops has no effect but the answer and its record: BAD-COMMAND for an unknown kind and for a
SETUP-PART index above 3, in every mode; with the table not BUILDING, IN-FAULT in FAULTED for SETUP-PART, GO, QUIESCE and
RESUME, and ALREADY in RUNNING and QUIESCED for SETUP-PART and GO. It follows the model's reading in logs 9 and 32. -/
def Obligations.RepeatedAndStoppedCommandsAreAnswered : Prop :=
  (∀ (s : State) (f : HeardFrame) (row : CommandRow) (held : List Byte), s.chip.named f row →
    s.chip.cmd.memory = some (byteAt f.body 1, held) →
    ∃ t, exec (commandOf row f) s = .next t ∧ s.chip.answered t.chip held ∧
      t = { s with
        chip := { Chip.heardBase s.chip t.chip with cmd := { s.chip.cmd with counters := t.chip.cmd.counters } } }) ∧
  (∀ (s : State) (f : HeardFrame) (row : CommandRow), s.chip.newCommand f row →
    s.chip.fold.table = .building ∨ s.chip.cmd.mode = .restarting → row ≠ .query → row ≠ .counters → row ≠ .bad →
    (row = .setupPart → (byteAt f.body 3).toNat ≤ 3) →
    ∃ t, exec (commandOf row f) s = .next t ∧
      s.chip.answered t.chip (answerBody s.chip.self s.chip.cmd.mode (byteAt f.body 1) (byteAt f.body 2)
        { code := .busy, naming := 0, data := [] }) ∧
      t = { s with
        chip := { Chip.heardBase s.chip t.chip with cmd := { s.chip.cmd with counters := t.chip.cmd.counters } } }) ∧
  (∀ (s : State) (f : HeardFrame) (row : CommandRow) (code : AnswerCode), s.chip.newCommand f row →
    (code = .badCommand ∧ (row = .bad ∨ (row = .setupPart ∧ 3 < (byteAt f.body 3).toNat))) ∨
    (s.chip.fold.table ≠ .building ∧ (row = .setupPart → (byteAt f.body 3).toNat ≤ 3) ∧
      ((code = .inFault ∧ s.chip.cmd.mode = .faulted ∧ row ∈ [.setupPart, .go, .quiesce, .resume]) ∨
        (code = .already ∧ (s.chip.cmd.mode = .running ∨ s.chip.cmd.mode = .quiesced) ∧ row ∈ [.setupPart, .go]))) →
    let body := answerBody s.chip.self s.chip.cmd.mode (byteAt f.body 1) (byteAt f.body 2) { code := code, naming := 0, data := [] }
    ∃ t, exec (commandOf row f) s = .next t ∧ s.chip.answered t.chip body ∧
      t = { s with
        chip := { Chip.heardBase s.chip t.chip with
          cmd := { s.chip.cmd with memory := some (byteAt f.body 1, body), counters := t.chip.cmd.counters } } })

/-- SETUP_PART in WAITING-SETUP with the table EMPTY: the content is kept in the staging place of its index and the answer is
STAGED. GO in WAITING-SETUP with the table EMPTY and staging that fails a check: MISSING names the lowest absent part, REFUSED
the first failing field, and the staging, the table and the mode stand. It follows the model's reading in logs 9 and 32. -/
def Obligations.StagingIsFilledAndChecked : Prop :=
  (∀ (s : State) (f : HeardFrame) (p : Fin 4), s.chip.newCommand f .setupPart → s.chip.cmd.mode = .waitingSetup →
    s.chip.fold.table = .empty → (byteAt f.body 3).toNat = p.val →
    let body := answerBody s.chip.self .waitingSetup (byteAt f.body 1) (byteAt f.body 2)
      { code := .staged, naming := 0, data := [] }
    ∃ t, exec (.setupPart f) s = .next t ∧ s.chip.answered t.chip body ∧
      t = { s with
        chip := { Chip.heardBase s.chip t.chip with
          cmd := { s.chip.cmd with
            staging := s.chip.cmd.staging.set p (some (f.body.drop 4)), memory := some (byteAt f.body 1, body),
            counters := t.chip.cmd.counters } } }) ∧
  (∀ (s : State) (f : HeardFrame) (r : Reply), s.chip.newCommand f .go → s.chip.cmd.mode = .waitingSetup →
    s.chip.fold.table = .empty →
    (∃ p : Fin 4, s.chip.cmd.staging[p] = none ∧ (∀ q : Fin 4, q < p → s.chip.cmd.staging[q] ≠ none) ∧
      r = { code := .missing, naming := BitVec.ofNat 8 p.val, data := [] }) ∨
    (∃ p0 p1 p2 p3 field, s.chip.cmd.staging = #v[some p0, some p1, some p2, some p3] ∧
      setupFault p0 p1 p2 p3 = some field ∧ r = { code := .refused, naming := field, data := [] }) →
    let body := answerBody s.chip.self .waitingSetup (byteAt f.body 1) (byteAt f.body 2) r
    ∃ t, exec (.go f) s = .next t ∧ s.chip.answered t.chip body ∧
      t = { s with
        chip := { Chip.heardBase s.chip t.chip with
          cmd := { s.chip.cmd with memory := some (byteAt f.body 1, body), counters := t.chip.cmd.counters } } })

/-- GO in WAITING-SETUP with the table EMPTY and four parts that pass the checks of R191: the setup is accepted with its clamps,
the table is BUILDING, the staging is emptied, every ring index is 0, and 0 stands in the notice ring's producer word; every
other byte of host memory is unchanged. POWER_TABLE_READY: the table is READY with the 31 entries of W; a station in
WAITING-SETUP enters RUNNING, and a FAULTED one stays. It follows the model's reading in logs 9, 27, 32 and 37. -/
def Obligations.AcceptedSetupStartsStation : Prop :=
  (∀ (s : State) (f : HeardFrame) (p0 p1 p2 p3 : List Byte), s.chip.newCommand f .go → s.chip.cmd.mode = .waitingSetup →
    s.chip.fold.table = .empty → s.chip.cmd.staging = #v[some p0, some p1, some p2, some p3] →
    setupFault p0 p1 p2 p3 = none →
    let body := answerBody s.chip.self .waitingSetup (byteAt f.body 1) (byteAt f.body 2)
      { code := .accepted, naming := 0, data := [] }
    ∃ t, exec (.go f) s = .next t ∧ s.chip.answered t.chip body ∧
      t.chip.cmd = { s.chip.cmd with
        setup := some (setupOf p0 p1 p2 p3), staging := Vector.replicate 4 none, memory := some (byteAt f.body 1, body),
        counters := t.chip.cmd.counters } ∧
      t.chip.fold = { s.chip.fold with table := .building, entries := [field p0 0 4] } ∧
      t.chip.small = { s.chip.small with cons := 0 } ∧ t.chip.large = { s.chip.large with cons := 0 } ∧
      (∀ a ∈ span (ringAt p2 0).producer 4, Memory.read a t.mem = some 0) ∧
      (∀ a, a ∉ span (ringAt p2 0).producer 4 → Memory.read a t.mem = Memory.read a s.mem) ∧
      t = { s with
        chip := { Chip.heardBase s.chip t.chip with
          cmd := t.chip.cmd, fold := t.chip.fold, small := t.chip.small, large := t.chip.large,
          notice := { (Chip.heardBase s.chip t.chip).notice with pn := 0, cn := 0 },
          link := { (Chip.heardBase s.chip t.chip).link with nextPoint := t.chip.link.nextPoint } },
        mem := t.mem }) ∧
  (∀ (s : State) (su : Setup), s.chip.inReset = false → s.chip.fold.table = .building → s.chip.cmd.setup = some su →
    ∃ t, exec .powerTableReady s = .next t ∧
      t.chip.fold = { s.chip.fold with table := .ready, entries := powerTable su.weight } ∧
      (s.chip.cmd.mode = .waitingSetup → t.chip.cmd.mode = .running ∧
        (s.chip.intake.state = .awaitHeader → t.chip.portReady = true) ∧
        ∀ cls, (s.chip.pool cls).cache = [] → (s.chip.pool cls).stack = [] → (s.chip.pool cls).refill = .idle →
          (t.chip.pool cls).refill = .producer 0) ∧
      (s.chip.cmd.mode ≠ .waitingSetup → t.chip.cmd.mode = s.chip.cmd.mode) ∧
      t = { s with
        chip := { s.chip with
          fold := t.chip.fold, cmd := { s.chip.cmd with mode := t.chip.cmd.mode }, small := t.chip.small,
          large := t.chip.large, intake := t.chip.intake,
          notice := { s.chip.notice with queue := t.chip.notice.queue, latches := t.chip.notice.latches } } })

/-- QUERY: the fields of the context that holds the tag, or NOT-HERE; nothing but the answer and its record changes, in every
mode. COUNTERS: the sixteen counters and the missed-beacon counts as they stand are answered, in every mode; a clear flag other
than 0 then sets them all to 0, and an answer that class 3 refuses stands after the clearing. It follows the model's reading in
logs 9 and 32. -/
def Obligations.QueryAndCountersReport : Prop :=
  (∀ (s : State) (f : HeardFrame), s.chip.newCommand f .query →
    let r : Reply :=
      match Table.find (tagAt f.body 3) s.chip.slots with
      | some (_, ctx) => { code := .reply, naming := 0, data := queryData s.chip.self ctx }
      | none => { code := .notHere, naming := 0, data := [] }
    let body := answerBody s.chip.self s.chip.cmd.mode (byteAt f.body 1) (byteAt f.body 2) r
    ∃ t, exec (.query f) s = .next t ∧ s.chip.answered t.chip body ∧
      t = { s with
        chip := { Chip.heardBase s.chip t.chip with
          cmd := { s.chip.cmd with memory := some (byteAt f.body 1, body), counters := t.chip.cmd.counters } } }) ∧
  (∀ (s : State) (f : HeardFrame), s.chip.newCommand f .counters →
    let body := answerBody s.chip.self s.chip.cmd.mode (byteAt f.body 1) (byteAt f.body 2)
      { code := .reply, naming := 0, data := countersData s.chip.self s.chip.cmd.counters s.chip.link.presence }
    let after : Vector Nat 16 := if byteAt f.body 3 = 0 then s.chip.cmd.counters else Vector.replicate 16 0
    ∃ t, exec (.counters f) s = .next t ∧
      t.chip.link.queues[(3 : Fin 4)] = s.chip.link.queues[(3 : Fin 4)] ++ (if s.chip.hasPlace 3 then [.answer body] else []) ∧
      (∀ q : Fin 4, q ≠ 3 → t.chip.link.queues[q] = s.chip.link.queues[q]) ∧
      (∀ x : Station, t.chip.link.presence[x].missed =
        if byteAt f.body 3 = 0 then s.chip.link.presence[x].missed else 0) ∧
      t = { s with
        chip := { Chip.heardBase s.chip t.chip with
          cmd := { s.chip.cmd with
            memory := some (byteAt f.body 1, body),
            counters := if s.chip.hasPlace 3 then after else after.set 15 (countUp after[(15 : Fin 16)]) } } })

/-- ABORT of a tag held by an anchor: the object ends ABORTED and the answer is DONE; in CLAIMING its CLAIM is withdrawn and its
provisional blocks are noticed first. It follows the model's reading in logs 9, 11, 12 and 32. -/
def Obligations.AbortEndsObject : Prop :=
  (∀ (s : State) (f : HeardFrame) (i : Nat) (ctx : Context) (a : Anchor), s.chip.newCommand f .abort →
    s.chip.fold.table ≠ .building → s.chip.cmd.mode ≠ .restarting → s.chip.tableOk →
    Table.find (tagAt f.body 3) s.chip.slots = some (i, ctx) → s.chip.anchor? i = some (ctx, a) → a.state ≠ .claiming →
    let body := answerBody s.chip.self s.chip.cmd.mode (byteAt f.body 1) (byteAt f.body 2)
      { code := .done, naming := 0, data := [] }
    ∃ t, exec (.abort f) s = .next t ∧
      s.chip.ended t.chip i ctx a .aborted (a.close.map fun r => (r.length, r.fold)) ∧ s.chip.othersKept t.chip i ∧
      t.chip.cmd = { s.chip.cmd with memory := some (byteAt f.body 1, body), counters := t.chip.cmd.counters } ∧
      t.chip.link.queues[(3 : Fin 4)] = s.chip.link.queues[(3 : Fin 4)] ++ (if s.chip.hasPlace 3 then [.answer body] else []) ∧
      t = { s with
        chip := { Chip.heardSettledBase s.chip t.chip with
          cmd := t.chip.cmd, intake := t.chip.intake, extFree := t.chip.extFree, cache := t.chip.cache,
          retired := t.chip.retired,
          notice := { s.chip.notice with queue := t.chip.notice.queue, latches := t.chip.notice.latches, re := t.chip.notice.re } } }) ∧
  (∀ (s : State) (f : HeardFrame) (i : Nat) (ctx : Context) (a : Anchor), s.chip.newCommand f .abort →
    s.chip.fold.table ≠ .building → s.chip.cmd.mode ≠ .restarting → s.chip.tableOk →
    Table.find (tagAt f.body 3) s.chip.slots = some (i, ctx) → s.chip.anchor? i = some (ctx, a) → a.state = .claiming →
    s.chip.noneOwed ctx.tag →
    let body := answerBody s.chip.self s.chip.cmd.mode (byteAt f.body 1) (byteAt f.body 2)
      { code := .done, naming := 0, data := [] }
    ∃ t, exec (.abort f) s = .next t ∧
      s.chip.claimEnded t.chip i ctx a .aborted (a.close.map fun r => (r.length, r.fold)) ∧ s.chip.othersKept t.chip i ∧
      t.chip.cmd = { s.chip.cmd with memory := some (byteAt f.body 1, body), counters := t.chip.cmd.counters } ∧
      t.chip.link.queues[(3 : Fin 4)] = s.chip.link.queues[(3 : Fin 4)] ++ (if s.chip.hasPlace 3 then [.answer body] else []) ∧
      t = { s with
        chip := { Chip.heardSettledBase s.chip t.chip with
          cmd := t.chip.cmd, intake := t.chip.intake, extFree := t.chip.extFree, cache := t.chip.cache,
          retired := t.chip.retired,
          link := { (Chip.heardSettledBase s.chip t.chip).link with wire := t.chip.link.wire },
          notice := { s.chip.notice with
            queue := t.chip.notice.queue, latches := t.chip.notice.latches, re := t.chip.notice.re, rb := t.chip.notice.rb } } })

/-- QUIESCE and RESUME: in RUNNING or QUIESCED the mode becomes QUIESCED or RUNNING and the answer, which carries the new mode,
is DONE; in WAITING-SETUP with the table EMPTY the answer is NO-SETUP and the mode stands. It follows the model's reading in
logs 9 and 32. -/
def Obligations.QuiesceAndResumeSetMode : Prop :=
  ∀ (s : State) (f : HeardFrame) (row : CommandRow) (target : Mode),
    (row = .quiesce ∧ target = .quiesced) ∨ (row = .resume ∧ target = .running) → s.chip.newCommand f row →
    s.chip.fold.table ≠ .building →
    (s.chip.cmd.mode = .running ∨ s.chip.cmd.mode = .quiesced →
      let body := answerBody s.chip.self target (byteAt f.body 1) (byteAt f.body 2) { code := .done, naming := 0, data := [] }
      ∃ t, exec (commandOf row f) s = .next t ∧ s.chip.answered t.chip body ∧
        t = { s with
          chip := { Chip.heardBase s.chip t.chip with
            cmd := { s.chip.cmd with
              mode := target, memory := some (byteAt f.body 1, body), counters := t.chip.cmd.counters } } }) ∧
    (s.chip.cmd.mode = .waitingSetup →
      let body := answerBody s.chip.self .waitingSetup (byteAt f.body 1) (byteAt f.body 2)
        { code := .noSetup, naming := 0, data := [] }
      ∃ t, exec (commandOf row f) s = .next t ∧ s.chip.answered t.chip body ∧
        t = { s with
          chip := { Chip.heardBase s.chip t.chip with
            cmd := { s.chip.cmd with memory := some (byteAt f.body 1, body), counters := t.chip.cmd.counters } } })

/-- RESTART taken: the mode is RESTARTING, the strike is clear and FAULT deasserted, no answer is queued yet, and the intake
ends its segment, the handle of a LANDING one waiting to be gathered and its pool reservations returned; the contexts, the
handles and the block reservations stand until the gathering (its order within the sequence is the model's reading, log 25). It
follows the model's reading in logs 9, 25, 32 and 44. -/
def Obligations.RestartEntersSequence : Prop :=
  ∀ (s : State) (f : HeardFrame), s.chip.newCommand f .restart → s.chip.fold.table ≠ .building →
    s.chip.cmd.mode ≠ .restarting →
    ∃ t, exec (.restart f) s = .next t ∧
      t.chip.cmd = { s.chip.cmd with
        mode := .restarting, faultPin := false, faultAtEnd := false, restartNumber := byteAt f.body 1 } ∧
      t.chip.link.strike = false ∧ t.chip.link.queues = s.chip.link.queues ∧
      (s.chip.intake.state = .awaitHeader → s.chip.intake.headerBytes = [] → t.chip.intake = s.chip.intake) ∧
      (s.chip.intake.state = .awaitHeader → s.chip.intake.headerBytes ≠ [] → t.chip.intake.state = .discarding) ∧
      (∀ g, s.chip.intake.state = .landing → s.chip.intake.seg = some g →
        t.chip.intake = { state := .discarding, headerBytes := [], seg := none, returning := g.handle } ∧
        t.chip.fold = s.chip.fold.clear ∧ t.chip.extFree = s.chip.extFree + (if g.extentRes then 1 else 0) ∧
        t.chip.pendFree = s.chip.pendFree + (if g.pendingRes then 1 else 0)) ∧
      (∀ g, s.chip.intake.state = .deciding ∨ s.chip.intake.state = .held → s.chip.intake.seg = some g →
        t.chip.intake.seg = none ∧ t.chip.intake.state = if g.flagTaken then .awaitHeader else .discarding) ∧
      t = { s with
        chip := { Chip.heardBase s.chip t.chip with
          cmd := t.chip.cmd, intake := t.chip.intake, fold := t.chip.fold, extFree := t.chip.extFree,
          pendFree := t.chip.pendFree,
          link := { (Chip.heardBase s.chip t.chip).link with strike := false } } }

/-- RESTART_GATHER once no refill runs, no second collision having come: everything is discarded, the handles of each class
stand in RETURN notices, SMALL first, four to a notice and in the last the one to four that remain, in gathering order: the
cache, the recycle stack, the handle of the segment RESTART ended, provisional blocks and then pending BLOCK entries by table
index, and BLOCK notices not yet being written; the rereads of the consumer word end, and a read in progress goes on; RESTARTED
is queued and recorded, and the station is RUNNING with a setup and WAITING-SETUP without. It follows the model's reading in
logs 16, 23, 24, 25, 28 and 40. -/
def Obligations.RestartReturnsEveryHandle : Prop :=
  ∀ s : State, s.chip.inReset = false → s.chip.cmd.mode = .restarting → s.chip.small.refill = .idle →
    s.chip.large.refill = .idle → s.chip.cmd.faultAtEnd = false →
    let body := answerBody s.chip.self .restarting s.chip.cmd.restartNumber 8 { code := .restarted, naming := 0, data := [] }
    let unwritten : List Notice :=
      match s.chip.notice.writing with
      | some w => if w.queued then s.chip.notice.queue.tail else s.chip.notice.queue
      | none => s.chip.notice.queue
    let others : List Handle := s.chip.intake.returning.toList ++
      ((Table.contexts s.chip.slots).flatMap fun p =>
        match p.2.role with | .anchor a => a.provisional.map BlockItem.handle | .feeder _ => []) ++
      ((Table.contexts s.chip.slots).flatMap fun p =>
        match p.2.role with | .anchor _ => [] | .feeder f => (itemsOf f.entries).map BlockItem.handle) ++
      unwritten.filterMap fun n => match n with | .block _ _ b => some b.handle | _ => none
    let gathered (cls : BufClass) : List Handle :=
      (s.chip.pool cls).cache ++ (s.chip.pool cls).stack ++ others.filter fun h => h.cls = cls
    ∃ (t : State) (smalls larges : List (List Handle)), exec .restartGather s = .next t ∧
      t.chip.notice.queue = smalls.map (.returned .small) ++ larges.map (.returned .large) ∧
      smalls.flatten = gathered .small ∧ larges.flatten = gathered .large ∧
      (∀ l ∈ smalls.dropLast ++ larges.dropLast, l.length = 4) ∧ (∀ l ∈ smalls ++ larges, 1 ≤ l.length ∧ l.length ≤ 4) ∧
      t.chip.slots = [] ∧ t.chip.extFree = 4096 ∧ t.chip.pendFree = 256 ∧ t.chip.pair = Vector.replicate 8 none ∧
      t.chip.cache = [] ∧ t.chip.retired = [] ∧ t.chip.verdicts = Vector.replicate 8 none ∧ t.chip.notice.re = 0 ∧
      t.chip.notice.rb = 0 ∧ t.chip.notice.latches = [] ∧
      (∀ cls, (t.chip.pool cls).cache = [] ∧ (t.chip.pool cls).stack = [] ∧
        (t.chip.pool cls).cons = (s.chip.pool cls).cons) ∧
      t.chip.link.queues = #v[[], [], [], [.answer body]] ∧
      t.chip.cmd = { s.chip.cmd with
        counters := Vector.replicate 16 0, memory := some (s.chip.cmd.restartNumber, body),
        mode := if s.chip.cmd.setup.isSome then .running else .waitingSetup } ∧
      t = { s with
        chip := { s.chip with
          cmd := t.chip.cmd, intake := t.chip.intake, slots := [], extFree := 4096, pendFree := 256, cache := [], retired := [],
          pair := t.chip.pair, verdicts := t.chip.verdicts, small := t.chip.small, large := t.chip.large,
          notice := { s.chip.notice with
            queue := t.chip.notice.queue, re := 0, rb := 0, latches := [], writing := t.chip.notice.writing,
            poll := if s.chip.notice.poll = .reading then .reading else .idle },
          link := { s.chip.link with
            queues := t.chip.link.queues, wire := t.chip.link.wire, presence := t.chip.link.presence } } } ∧
      (∀ x : Station, t.chip.link.presence[x] = { s.chip.link.presence[x] with missed := 0 }) ∧
      t.chip.fold = s.chip.fold ∧ t.chip.nextSeq = s.chip.nextSeq ∧ t.chip.notice.pn = s.chip.notice.pn ∧
      t.chip.link.state = s.chip.link.state ∧ t.chip.link.nextPoint = s.chip.link.nextPoint ∧ t.mem = s.mem ∧
      t.pending = s.pending

/-! ## The memory port -/

/-- PRODUCER_WORD_ARRIVES: A is the one number below M with C + A equal to the word modulo M, and the refill takes the lesser of
A and 16 - n entries; with none to take it ends. RING_ENTRY_ARRIVES: the entry read is C + got modulo M, 16 bytes each from the
ring's base; its handle, a copy of its own, joins the tail of the cache, and the last of the R entries begins the CONSUMER
stage. A value that arrives for an address the refill does not read changes nothing. CONSUMER_WORD_WRITTEN: C has advanced by R
modulo M and stands in the consumer word, most significant byte first; every other byte of host memory is unchanged, and the
next refill starts when the class needs one. It follows the model's reading in logs 15, 16, 19, 22, 32 and 42. -/
def Obligations.RefillReadsRing : Prop :=
  (∀ (s : State) (cls : BufClass) (word : BitVec 32) (n avail : Nat), s.chip.inReset = false →
    (s.chip.pool cls).refill = .producer n → (s.chip.pool cls).cons < (s.chip.ring cls).size →
    avail < (s.chip.ring cls).size →
    ((s.chip.pool cls).cons + avail) % (s.chip.ring cls).size = word.toNat % (s.chip.ring cls).size →
    ∃ t, exec (.producerWordArrives cls ⟨(s.chip.ring cls).producer, word⟩) s = .next t ∧
      t.chip.pool cls = { s.chip.pool cls with
        refill := if min avail (16 - n) = 0 then .idle else .entries (min avail (16 - n)) 0 } ∧
      t = { s with chip := { s.chip with small := t.chip.small, large := t.chip.large } } ∧
      ∀ other, other ≠ cls → t.chip.pool other = s.chip.pool other) ∧
  ((∀ (s : State) (cls : BufClass) (entry : List Byte) (r got : Nat), s.chip.inReset = false →
    (s.chip.pool cls).refill = .entries r got →
    let number := ((s.chip.pool cls).cons + got) % (s.chip.ring cls).size
    ∃ t, exec (.ringEntryArrives cls ⟨(s.chip.ring cls).base + BitVec.ofNat 64 (16 * number), entry⟩) s = .next t ∧
      t.chip.pool cls = { s.chip.pool cls with
        cache := (s.chip.pool cls).cache ++
          [{ cls := cls, addr := BitVec.ofNat 64 (field entry 0 8), index := BitVec.ofNat 24 (field entry 8 3),
             copy := s.chip.handlesTaken }],
        refill := if got + 1 = r then .consumer r else .entries r (got + 1) } ∧
      t = { s with
        chip := { s.chip with
          small := t.chip.small, large := t.chip.large, handlesTaken := s.chip.handlesTaken + 1 } } ∧
      ∀ other, other ≠ cls → t.chip.pool other = s.chip.pool other) ∧
  (∀ (s : State) (cls : BufClass) (addr : Addr) (word : BitVec 32) (entry : List Byte),
    (∀ n, (s.chip.pool cls).refill = .producer n → addr ≠ (s.chip.ring cls).producer) →
    (∀ r got, (s.chip.pool cls).refill = .entries r got →
      addr ≠ (s.chip.ring cls).base + BitVec.ofNat 64 (16 * (((s.chip.pool cls).cons + got) % (s.chip.ring cls).size))) →
    exec (.producerWordArrives cls ⟨addr, word⟩) s = .next s ∧ exec (.ringEntryArrives cls ⟨addr, entry⟩) s = .next s)) ∧
  (∀ (s : State) (cls : BufClass) (r : Nat), s.chip.inReset = false → (s.chip.pool cls).refill = .consumer r →
    let cons := ((s.chip.pool cls).cons + r) % (s.chip.ring cls).size
    ∃ t, exec (.consumerWordWritten cls) s = .next t ∧ (t.chip.pool cls).cons = cons ∧
      (t.chip.pool cls).cache = (s.chip.pool cls).cache ∧ (t.chip.pool cls).stack = (s.chip.pool cls).stack ∧
      (t.chip.pool cls).refill =
        (if (s.chip.pool cls).cache.length < 4 ∧ (s.chip.pool cls).stack = [] ∧ s.chip.cmd.setup ≠ none ∧
            s.chip.cmd.mode ≠ .restarting then .producer (s.chip.pool cls).cache.length else .idle) ∧
      (∀ i, i < 4 → Memory.read ((s.chip.ring cls).consumer + BitVec.ofNat 64 i).toNat t.mem = (beBytes 4 cons)[i]?) ∧
      (∀ a, a ∉ span (s.chip.ring cls).consumer 4 → Memory.read a t.mem = Memory.read a s.mem) ∧
      t = { s with chip := { s.chip with small := t.chip.small, large := t.chip.large }, mem := t.mem } ∧
      ∀ other, other ≠ cls → t.chip.pool other = s.chip.pool other)

/-- NOTICE_WRITE_BEGIN with a record waiting and none being written: while a payload write of its handles is in progress nothing
is begun; else its write begins when the ring is not full, and on a full ring the consumer word is read. CONSUMER_WORD_ARRIVES
and CONSUMER_POLL_EXPIRY: Cn is the word modulo M; a ring still full with a record waiting is read again 8 µs after the read,
and otherwise the reading ends. That the 8 µs run from the word's arrival is the model's reading (log 24). It follows the
model's reading in logs 3, 24 and 32. -/
def Obligations.RecordWriteBeginsOrPolls : Prop :=
  (∀ (s : State) (n : Notice) (rest : List Notice) (su : Setup), s.chip.inReset = false → s.chip.cmd.setup = some su →
    s.chip.notice.queue = n :: rest → s.chip.notice.writing = none →
    let landed : Bool := s.chip.payloadWrites.all fun w => !n.handles.any fun h => h = w.handle
    exec .noticeWriteBegin s = .next { s with
      chip := { s.chip with
        notice := { s.chip.notice with
          writing := if landed = true ∧ s.chip.ringFull = false then some { notice := n, queued := true } else none,
          poll :=
            if landed = true ∧ s.chip.ringFull = true ∧ s.chip.notice.poll = .idle then .reading
            else s.chip.notice.poll } } }) ∧
  ((∀ (s : State) (word : BitVec 32), s.chip.inReset = false → s.chip.notice.poll = .reading →
    let m := s.chip.params.ringNotice.size
    let cn := word.toNat % m
    exec (.consumerWordArrives ⟨s.chip.params.ringNotice.consumer, word⟩) s = .next { s with
      chip := { s.chip with
        notice := { s.chip.notice with
          cn := cn,
          poll :=
            if (s.chip.notice.pn + m - cn) % m = m - 1 ∧ s.chip.notice.queue ≠ [] then
              .waiting (.running (s.chip.now + 8))
            else .idle } } }) ∧
  ∀ (s : State) (d : Nat), s.chip.inReset = false → s.chip.notice.poll = .waiting (.running d) →
    exec .consumerPollExpiry s = .next { s with
      chip := { s.chip with
        now := max s.chip.now d,
        notice := { s.chip.notice with
          poll := if s.chip.ringFull = true ∧ s.chip.notice.queue ≠ [] then .reading else .idle } } })

/-- NOTICE_WRITE_END: the record stands in entry Pn of the ring, it leaves the queue, Pn advances by one modulo M and stands in
the producer word; every byte outside the entry and the producer word is unchanged. It follows the model's reading in logs 6, 11
and 22. -/
def Obligations.WrittenRecordLeavesQueue : Prop :=
  ∀ (s : State) (n : Notice) (rest : List Notice), s.chip.inReset = false →
    s.chip.notice.writing = some { notice := n, queued := true } → s.chip.notice.queue = n :: rest →
    let entry := s.chip.params.ringNotice.base + BitVec.ofNat 64 (32 * s.chip.notice.pn)
    let record := n.bytes s.chip.params.filterMode s.chip.params.filterTags
    let pn := (s.chip.notice.pn + 1) % s.chip.params.ringNotice.size
    ∃ t, exec .noticeWriteEnd s = .next t ∧
      (∃ given : List Latch, t.chip.notice.queue = rest ++ given.map .station) ∧ t.chip.notice.writing = none ∧
      t.chip.notice.pn = pn ∧ record.length = 32 ∧
      (∀ i, i < 32 → (entry + BitVec.ofNat 64 i).toNat ∉ span s.chip.params.ringNotice.producer 4 →
        Memory.read (entry + BitVec.ofNat 64 i).toNat t.mem = record[i]?) ∧
      (∀ i, i < 4 →
        Memory.read (s.chip.params.ringNotice.producer + BitVec.ofNat 64 i).toNat t.mem = (beBytes 4 pn)[i]?) ∧
      (∀ a, a ∉ span entry 32 → a ∉ span s.chip.params.ringNotice.producer 4 → Memory.read a t.mem = Memory.read a s.mem) ∧
      t = { s with
        chip := { s.chip with
          intake := t.chip.intake,
          notice := { s.chip.notice with
            queue := t.chip.notice.queue, latches := t.chip.notice.latches, writing := none, pn := pn } },
        mem := t.mem }

/-- PAYLOAD_WRITE_DONE: the oldest bytes in flight for the handle stand in host memory at their addresses and are in flight no
more; every other byte is unchanged. It follows the model's reading in logs 6 and 21. -/
def Obligations.PayloadBytesReachMemory : Prop :=
  ∀ (s : State) (hd : Handle) (n : Nat), s.chip.inReset = false →
    let done := firstOf hd n s.chip.payloadWrites
    ∃ t, exec (.payloadWriteDone hd n) s = .next t ∧
      done = (s.chip.payloadWrites.filter fun w => w.handle = hd).take n ∧
      (∀ w, (t.chip.payloadWrites.filter fun v => v.handle = w) =
        if w = hd then (s.chip.payloadWrites.filter fun v => v.handle = hd).drop n
        else s.chip.payloadWrites.filter fun v => v.handle = w) ∧
      ((done.map fun w => w.addr).Nodup → ∀ w ∈ done, Memory.read w.addr.toNat t.mem = some w.data) ∧
      (∀ a, a ∉ done.map (fun w => w.addr.toNat) → Memory.read a t.mem = Memory.read a s.mem) ∧
      t = { s with chip := { s.chip with payloadWrites := t.chip.payloadWrites }, mem := t.mem }
end

