-- ==== Sys2Proof/Laws/State.lean ====
section
/-! SUPPORT. Reading a field after a named update: one lemma for each field and each update. -/

namespace Sys2Proof.Machine

variable (c : Chip) (s : State)

@[simp] theorem Chip.withInReset_inReset (x : Bool) : (c.withInReset x).inReset = x := rfl
@[simp] theorem Chip.withInReset_self (x : Bool) : (c.withInReset x).self = c.self := rfl
@[simp] theorem Chip.withInReset_now (x : Bool) : (c.withInReset x).now = c.now := rfl
@[simp] theorem Chip.withInReset_freeIndex (x : Bool) : (c.withInReset x).freeIndex = c.freeIndex := rfl
@[simp] theorem Chip.withInReset_cmd (x : Bool) : (c.withInReset x).cmd = c.cmd := rfl
@[simp] theorem Chip.withInReset_fold (x : Bool) : (c.withInReset x).fold = c.fold := rfl
@[simp] theorem Chip.withInReset_intake (x : Bool) : (c.withInReset x).intake = c.intake := rfl
@[simp] theorem Chip.withInReset_link (x : Bool) : (c.withInReset x).link = c.link := rfl
@[simp] theorem Chip.withInReset_slots (x : Bool) : (c.withInReset x).slots = c.slots := rfl
@[simp] theorem Chip.withInReset_extFree (x : Bool) : (c.withInReset x).extFree = c.extFree := rfl
@[simp] theorem Chip.withInReset_pendFree (x : Bool) : (c.withInReset x).pendFree = c.pendFree := rfl
@[simp] theorem Chip.withInReset_cache (x : Bool) : (c.withInReset x).cache = c.cache := rfl
@[simp] theorem Chip.withInReset_retired (x : Bool) : (c.withInReset x).retired = c.retired := rfl
@[simp] theorem Chip.withInReset_nextSeq (x : Bool) : (c.withInReset x).nextSeq = c.nextSeq := rfl
@[simp] theorem Chip.withInReset_pair (x : Bool) : (c.withInReset x).pair = c.pair := rfl
@[simp] theorem Chip.withInReset_verdicts (x : Bool) : (c.withInReset x).verdicts = c.verdicts := rfl
@[simp] theorem Chip.withInReset_small (x : Bool) : (c.withInReset x).small = c.small := rfl
@[simp] theorem Chip.withInReset_large (x : Bool) : (c.withInReset x).large = c.large := rfl
@[simp] theorem Chip.withInReset_notice (x : Bool) : (c.withInReset x).notice = c.notice := rfl
@[simp] theorem Chip.withInReset_payloadWrites (x : Bool) : (c.withInReset x).payloadWrites = c.payloadWrites := rfl
@[simp] theorem Chip.withInReset_handlesTaken (x : Bool) : (c.withInReset x).handlesTaken = c.handlesTaken := rfl

@[simp] theorem Chip.withSelf_inReset (x : Station) : (c.withSelf x).inReset = c.inReset := rfl
@[simp] theorem Chip.withSelf_self (x : Station) : (c.withSelf x).self = x := rfl
@[simp] theorem Chip.withSelf_now (x : Station) : (c.withSelf x).now = c.now := rfl
@[simp] theorem Chip.withSelf_freeIndex (x : Station) : (c.withSelf x).freeIndex = c.freeIndex := rfl
@[simp] theorem Chip.withSelf_cmd (x : Station) : (c.withSelf x).cmd = c.cmd := rfl
@[simp] theorem Chip.withSelf_fold (x : Station) : (c.withSelf x).fold = c.fold := rfl
@[simp] theorem Chip.withSelf_intake (x : Station) : (c.withSelf x).intake = c.intake := rfl
@[simp] theorem Chip.withSelf_link (x : Station) : (c.withSelf x).link = c.link := rfl
@[simp] theorem Chip.withSelf_slots (x : Station) : (c.withSelf x).slots = c.slots := rfl
@[simp] theorem Chip.withSelf_extFree (x : Station) : (c.withSelf x).extFree = c.extFree := rfl
@[simp] theorem Chip.withSelf_pendFree (x : Station) : (c.withSelf x).pendFree = c.pendFree := rfl
@[simp] theorem Chip.withSelf_cache (x : Station) : (c.withSelf x).cache = c.cache := rfl
@[simp] theorem Chip.withSelf_retired (x : Station) : (c.withSelf x).retired = c.retired := rfl
@[simp] theorem Chip.withSelf_nextSeq (x : Station) : (c.withSelf x).nextSeq = c.nextSeq := rfl
@[simp] theorem Chip.withSelf_pair (x : Station) : (c.withSelf x).pair = c.pair := rfl
@[simp] theorem Chip.withSelf_verdicts (x : Station) : (c.withSelf x).verdicts = c.verdicts := rfl
@[simp] theorem Chip.withSelf_small (x : Station) : (c.withSelf x).small = c.small := rfl
@[simp] theorem Chip.withSelf_large (x : Station) : (c.withSelf x).large = c.large := rfl
@[simp] theorem Chip.withSelf_notice (x : Station) : (c.withSelf x).notice = c.notice := rfl
@[simp] theorem Chip.withSelf_payloadWrites (x : Station) : (c.withSelf x).payloadWrites = c.payloadWrites := rfl
@[simp] theorem Chip.withSelf_handlesTaken (x : Station) : (c.withSelf x).handlesTaken = c.handlesTaken := rfl

@[simp] theorem Chip.withNow_inReset (x : Nat) : (c.withNow x).inReset = c.inReset := rfl
@[simp] theorem Chip.withNow_self (x : Nat) : (c.withNow x).self = c.self := rfl
@[simp] theorem Chip.withNow_now (x : Nat) : (c.withNow x).now = x := rfl
@[simp] theorem Chip.withNow_freeIndex (x : Nat) : (c.withNow x).freeIndex = c.freeIndex := rfl
@[simp] theorem Chip.withNow_cmd (x : Nat) : (c.withNow x).cmd = c.cmd := rfl
@[simp] theorem Chip.withNow_fold (x : Nat) : (c.withNow x).fold = c.fold := rfl
@[simp] theorem Chip.withNow_intake (x : Nat) : (c.withNow x).intake = c.intake := rfl
@[simp] theorem Chip.withNow_link (x : Nat) : (c.withNow x).link = c.link := rfl
@[simp] theorem Chip.withNow_slots (x : Nat) : (c.withNow x).slots = c.slots := rfl
@[simp] theorem Chip.withNow_extFree (x : Nat) : (c.withNow x).extFree = c.extFree := rfl
@[simp] theorem Chip.withNow_pendFree (x : Nat) : (c.withNow x).pendFree = c.pendFree := rfl
@[simp] theorem Chip.withNow_cache (x : Nat) : (c.withNow x).cache = c.cache := rfl
@[simp] theorem Chip.withNow_retired (x : Nat) : (c.withNow x).retired = c.retired := rfl
@[simp] theorem Chip.withNow_nextSeq (x : Nat) : (c.withNow x).nextSeq = c.nextSeq := rfl
@[simp] theorem Chip.withNow_pair (x : Nat) : (c.withNow x).pair = c.pair := rfl
@[simp] theorem Chip.withNow_verdicts (x : Nat) : (c.withNow x).verdicts = c.verdicts := rfl
@[simp] theorem Chip.withNow_small (x : Nat) : (c.withNow x).small = c.small := rfl
@[simp] theorem Chip.withNow_large (x : Nat) : (c.withNow x).large = c.large := rfl
@[simp] theorem Chip.withNow_notice (x : Nat) : (c.withNow x).notice = c.notice := rfl
@[simp] theorem Chip.withNow_payloadWrites (x : Nat) : (c.withNow x).payloadWrites = c.payloadWrites := rfl
@[simp] theorem Chip.withNow_handlesTaken (x : Nat) : (c.withNow x).handlesTaken = c.handlesTaken := rfl

@[simp] theorem Chip.withFreeIndex_inReset (x : Nat) : (c.withFreeIndex x).inReset = c.inReset := rfl
@[simp] theorem Chip.withFreeIndex_self (x : Nat) : (c.withFreeIndex x).self = c.self := rfl
@[simp] theorem Chip.withFreeIndex_now (x : Nat) : (c.withFreeIndex x).now = c.now := rfl
@[simp] theorem Chip.withFreeIndex_freeIndex (x : Nat) : (c.withFreeIndex x).freeIndex = x := rfl
@[simp] theorem Chip.withFreeIndex_cmd (x : Nat) : (c.withFreeIndex x).cmd = c.cmd := rfl
@[simp] theorem Chip.withFreeIndex_fold (x : Nat) : (c.withFreeIndex x).fold = c.fold := rfl
@[simp] theorem Chip.withFreeIndex_intake (x : Nat) : (c.withFreeIndex x).intake = c.intake := rfl
@[simp] theorem Chip.withFreeIndex_link (x : Nat) : (c.withFreeIndex x).link = c.link := rfl
@[simp] theorem Chip.withFreeIndex_slots (x : Nat) : (c.withFreeIndex x).slots = c.slots := rfl
@[simp] theorem Chip.withFreeIndex_extFree (x : Nat) : (c.withFreeIndex x).extFree = c.extFree := rfl
@[simp] theorem Chip.withFreeIndex_pendFree (x : Nat) : (c.withFreeIndex x).pendFree = c.pendFree := rfl
@[simp] theorem Chip.withFreeIndex_cache (x : Nat) : (c.withFreeIndex x).cache = c.cache := rfl
@[simp] theorem Chip.withFreeIndex_retired (x : Nat) : (c.withFreeIndex x).retired = c.retired := rfl
@[simp] theorem Chip.withFreeIndex_nextSeq (x : Nat) : (c.withFreeIndex x).nextSeq = c.nextSeq := rfl
@[simp] theorem Chip.withFreeIndex_pair (x : Nat) : (c.withFreeIndex x).pair = c.pair := rfl
@[simp] theorem Chip.withFreeIndex_verdicts (x : Nat) : (c.withFreeIndex x).verdicts = c.verdicts := rfl
@[simp] theorem Chip.withFreeIndex_small (x : Nat) : (c.withFreeIndex x).small = c.small := rfl
@[simp] theorem Chip.withFreeIndex_large (x : Nat) : (c.withFreeIndex x).large = c.large := rfl
@[simp] theorem Chip.withFreeIndex_notice (x : Nat) : (c.withFreeIndex x).notice = c.notice := rfl
@[simp] theorem Chip.withFreeIndex_payloadWrites (x : Nat) : (c.withFreeIndex x).payloadWrites = c.payloadWrites := rfl
@[simp] theorem Chip.withFreeIndex_handlesTaken (x : Nat) : (c.withFreeIndex x).handlesTaken = c.handlesTaken := rfl

@[simp] theorem Chip.withCmd_inReset (x : CommandUnit) : (c.withCmd x).inReset = c.inReset := rfl
@[simp] theorem Chip.withCmd_self (x : CommandUnit) : (c.withCmd x).self = c.self := rfl
@[simp] theorem Chip.withCmd_now (x : CommandUnit) : (c.withCmd x).now = c.now := rfl
@[simp] theorem Chip.withCmd_freeIndex (x : CommandUnit) : (c.withCmd x).freeIndex = c.freeIndex := rfl
@[simp] theorem Chip.withCmd_cmd (x : CommandUnit) : (c.withCmd x).cmd = x := rfl
@[simp] theorem Chip.withCmd_fold (x : CommandUnit) : (c.withCmd x).fold = c.fold := rfl
@[simp] theorem Chip.withCmd_intake (x : CommandUnit) : (c.withCmd x).intake = c.intake := rfl
@[simp] theorem Chip.withCmd_link (x : CommandUnit) : (c.withCmd x).link = c.link := rfl
@[simp] theorem Chip.withCmd_slots (x : CommandUnit) : (c.withCmd x).slots = c.slots := rfl
@[simp] theorem Chip.withCmd_extFree (x : CommandUnit) : (c.withCmd x).extFree = c.extFree := rfl
@[simp] theorem Chip.withCmd_pendFree (x : CommandUnit) : (c.withCmd x).pendFree = c.pendFree := rfl
@[simp] theorem Chip.withCmd_cache (x : CommandUnit) : (c.withCmd x).cache = c.cache := rfl
@[simp] theorem Chip.withCmd_retired (x : CommandUnit) : (c.withCmd x).retired = c.retired := rfl
@[simp] theorem Chip.withCmd_nextSeq (x : CommandUnit) : (c.withCmd x).nextSeq = c.nextSeq := rfl
@[simp] theorem Chip.withCmd_pair (x : CommandUnit) : (c.withCmd x).pair = c.pair := rfl
@[simp] theorem Chip.withCmd_verdicts (x : CommandUnit) : (c.withCmd x).verdicts = c.verdicts := rfl
@[simp] theorem Chip.withCmd_small (x : CommandUnit) : (c.withCmd x).small = c.small := rfl
@[simp] theorem Chip.withCmd_large (x : CommandUnit) : (c.withCmd x).large = c.large := rfl
@[simp] theorem Chip.withCmd_notice (x : CommandUnit) : (c.withCmd x).notice = c.notice := rfl
@[simp] theorem Chip.withCmd_payloadWrites (x : CommandUnit) : (c.withCmd x).payloadWrites = c.payloadWrites := rfl
@[simp] theorem Chip.withCmd_handlesTaken (x : CommandUnit) : (c.withCmd x).handlesTaken = c.handlesTaken := rfl

@[simp] theorem Chip.withFold_inReset (x : FoldUnit) : (c.withFold x).inReset = c.inReset := rfl
@[simp] theorem Chip.withFold_self (x : FoldUnit) : (c.withFold x).self = c.self := rfl
@[simp] theorem Chip.withFold_now (x : FoldUnit) : (c.withFold x).now = c.now := rfl
@[simp] theorem Chip.withFold_freeIndex (x : FoldUnit) : (c.withFold x).freeIndex = c.freeIndex := rfl
@[simp] theorem Chip.withFold_cmd (x : FoldUnit) : (c.withFold x).cmd = c.cmd := rfl
@[simp] theorem Chip.withFold_fold (x : FoldUnit) : (c.withFold x).fold = x := rfl
@[simp] theorem Chip.withFold_intake (x : FoldUnit) : (c.withFold x).intake = c.intake := rfl
@[simp] theorem Chip.withFold_link (x : FoldUnit) : (c.withFold x).link = c.link := rfl
@[simp] theorem Chip.withFold_slots (x : FoldUnit) : (c.withFold x).slots = c.slots := rfl
@[simp] theorem Chip.withFold_extFree (x : FoldUnit) : (c.withFold x).extFree = c.extFree := rfl
@[simp] theorem Chip.withFold_pendFree (x : FoldUnit) : (c.withFold x).pendFree = c.pendFree := rfl
@[simp] theorem Chip.withFold_cache (x : FoldUnit) : (c.withFold x).cache = c.cache := rfl
@[simp] theorem Chip.withFold_retired (x : FoldUnit) : (c.withFold x).retired = c.retired := rfl
@[simp] theorem Chip.withFold_nextSeq (x : FoldUnit) : (c.withFold x).nextSeq = c.nextSeq := rfl
@[simp] theorem Chip.withFold_pair (x : FoldUnit) : (c.withFold x).pair = c.pair := rfl
@[simp] theorem Chip.withFold_verdicts (x : FoldUnit) : (c.withFold x).verdicts = c.verdicts := rfl
@[simp] theorem Chip.withFold_small (x : FoldUnit) : (c.withFold x).small = c.small := rfl
@[simp] theorem Chip.withFold_large (x : FoldUnit) : (c.withFold x).large = c.large := rfl
@[simp] theorem Chip.withFold_notice (x : FoldUnit) : (c.withFold x).notice = c.notice := rfl
@[simp] theorem Chip.withFold_payloadWrites (x : FoldUnit) : (c.withFold x).payloadWrites = c.payloadWrites := rfl
@[simp] theorem Chip.withFold_handlesTaken (x : FoldUnit) : (c.withFold x).handlesTaken = c.handlesTaken := rfl

@[simp] theorem Chip.withIntake_inReset (x : Intake) : (c.withIntake x).inReset = c.inReset := rfl
@[simp] theorem Chip.withIntake_self (x : Intake) : (c.withIntake x).self = c.self := rfl
@[simp] theorem Chip.withIntake_now (x : Intake) : (c.withIntake x).now = c.now := rfl
@[simp] theorem Chip.withIntake_freeIndex (x : Intake) : (c.withIntake x).freeIndex = c.freeIndex := rfl
@[simp] theorem Chip.withIntake_cmd (x : Intake) : (c.withIntake x).cmd = c.cmd := rfl
@[simp] theorem Chip.withIntake_fold (x : Intake) : (c.withIntake x).fold = c.fold := rfl
@[simp] theorem Chip.withIntake_intake (x : Intake) : (c.withIntake x).intake = x := rfl
@[simp] theorem Chip.withIntake_link (x : Intake) : (c.withIntake x).link = c.link := rfl
@[simp] theorem Chip.withIntake_slots (x : Intake) : (c.withIntake x).slots = c.slots := rfl
@[simp] theorem Chip.withIntake_extFree (x : Intake) : (c.withIntake x).extFree = c.extFree := rfl
@[simp] theorem Chip.withIntake_pendFree (x : Intake) : (c.withIntake x).pendFree = c.pendFree := rfl
@[simp] theorem Chip.withIntake_cache (x : Intake) : (c.withIntake x).cache = c.cache := rfl
@[simp] theorem Chip.withIntake_retired (x : Intake) : (c.withIntake x).retired = c.retired := rfl
@[simp] theorem Chip.withIntake_nextSeq (x : Intake) : (c.withIntake x).nextSeq = c.nextSeq := rfl
@[simp] theorem Chip.withIntake_pair (x : Intake) : (c.withIntake x).pair = c.pair := rfl
@[simp] theorem Chip.withIntake_verdicts (x : Intake) : (c.withIntake x).verdicts = c.verdicts := rfl
@[simp] theorem Chip.withIntake_small (x : Intake) : (c.withIntake x).small = c.small := rfl
@[simp] theorem Chip.withIntake_large (x : Intake) : (c.withIntake x).large = c.large := rfl
@[simp] theorem Chip.withIntake_notice (x : Intake) : (c.withIntake x).notice = c.notice := rfl
@[simp] theorem Chip.withIntake_payloadWrites (x : Intake) : (c.withIntake x).payloadWrites = c.payloadWrites := rfl
@[simp] theorem Chip.withIntake_handlesTaken (x : Intake) : (c.withIntake x).handlesTaken = c.handlesTaken := rfl

@[simp] theorem Chip.withLink_inReset (x : Link) : (c.withLink x).inReset = c.inReset := rfl
@[simp] theorem Chip.withLink_self (x : Link) : (c.withLink x).self = c.self := rfl
@[simp] theorem Chip.withLink_now (x : Link) : (c.withLink x).now = c.now := rfl
@[simp] theorem Chip.withLink_freeIndex (x : Link) : (c.withLink x).freeIndex = c.freeIndex := rfl
@[simp] theorem Chip.withLink_cmd (x : Link) : (c.withLink x).cmd = c.cmd := rfl
@[simp] theorem Chip.withLink_fold (x : Link) : (c.withLink x).fold = c.fold := rfl
@[simp] theorem Chip.withLink_intake (x : Link) : (c.withLink x).intake = c.intake := rfl
@[simp] theorem Chip.withLink_link (x : Link) : (c.withLink x).link = x := rfl
@[simp] theorem Chip.withLink_slots (x : Link) : (c.withLink x).slots = c.slots := rfl
@[simp] theorem Chip.withLink_extFree (x : Link) : (c.withLink x).extFree = c.extFree := rfl
@[simp] theorem Chip.withLink_pendFree (x : Link) : (c.withLink x).pendFree = c.pendFree := rfl
@[simp] theorem Chip.withLink_cache (x : Link) : (c.withLink x).cache = c.cache := rfl
@[simp] theorem Chip.withLink_retired (x : Link) : (c.withLink x).retired = c.retired := rfl
@[simp] theorem Chip.withLink_nextSeq (x : Link) : (c.withLink x).nextSeq = c.nextSeq := rfl
@[simp] theorem Chip.withLink_pair (x : Link) : (c.withLink x).pair = c.pair := rfl
@[simp] theorem Chip.withLink_verdicts (x : Link) : (c.withLink x).verdicts = c.verdicts := rfl
@[simp] theorem Chip.withLink_small (x : Link) : (c.withLink x).small = c.small := rfl
@[simp] theorem Chip.withLink_large (x : Link) : (c.withLink x).large = c.large := rfl
@[simp] theorem Chip.withLink_notice (x : Link) : (c.withLink x).notice = c.notice := rfl
@[simp] theorem Chip.withLink_payloadWrites (x : Link) : (c.withLink x).payloadWrites = c.payloadWrites := rfl
@[simp] theorem Chip.withLink_handlesTaken (x : Link) : (c.withLink x).handlesTaken = c.handlesTaken := rfl

@[simp] theorem Chip.withSlots_inReset (x : List (Nat × Slot)) : (c.withSlots x).inReset = c.inReset := rfl
@[simp] theorem Chip.withSlots_self (x : List (Nat × Slot)) : (c.withSlots x).self = c.self := rfl
@[simp] theorem Chip.withSlots_now (x : List (Nat × Slot)) : (c.withSlots x).now = c.now := rfl
@[simp] theorem Chip.withSlots_freeIndex (x : List (Nat × Slot)) : (c.withSlots x).freeIndex = c.freeIndex := rfl
@[simp] theorem Chip.withSlots_cmd (x : List (Nat × Slot)) : (c.withSlots x).cmd = c.cmd := rfl
@[simp] theorem Chip.withSlots_fold (x : List (Nat × Slot)) : (c.withSlots x).fold = c.fold := rfl
@[simp] theorem Chip.withSlots_intake (x : List (Nat × Slot)) : (c.withSlots x).intake = c.intake := rfl
@[simp] theorem Chip.withSlots_link (x : List (Nat × Slot)) : (c.withSlots x).link = c.link := rfl
@[simp] theorem Chip.withSlots_slots (x : List (Nat × Slot)) : (c.withSlots x).slots = x := rfl
@[simp] theorem Chip.withSlots_extFree (x : List (Nat × Slot)) : (c.withSlots x).extFree = c.extFree := rfl
@[simp] theorem Chip.withSlots_pendFree (x : List (Nat × Slot)) : (c.withSlots x).pendFree = c.pendFree := rfl
@[simp] theorem Chip.withSlots_cache (x : List (Nat × Slot)) : (c.withSlots x).cache = c.cache := rfl
@[simp] theorem Chip.withSlots_retired (x : List (Nat × Slot)) : (c.withSlots x).retired = c.retired := rfl
@[simp] theorem Chip.withSlots_nextSeq (x : List (Nat × Slot)) : (c.withSlots x).nextSeq = c.nextSeq := rfl
@[simp] theorem Chip.withSlots_pair (x : List (Nat × Slot)) : (c.withSlots x).pair = c.pair := rfl
@[simp] theorem Chip.withSlots_verdicts (x : List (Nat × Slot)) : (c.withSlots x).verdicts = c.verdicts := rfl
@[simp] theorem Chip.withSlots_small (x : List (Nat × Slot)) : (c.withSlots x).small = c.small := rfl
@[simp] theorem Chip.withSlots_large (x : List (Nat × Slot)) : (c.withSlots x).large = c.large := rfl
@[simp] theorem Chip.withSlots_notice (x : List (Nat × Slot)) : (c.withSlots x).notice = c.notice := rfl
@[simp] theorem Chip.withSlots_payloadWrites (x : List (Nat × Slot)) : (c.withSlots x).payloadWrites = c.payloadWrites := rfl
@[simp] theorem Chip.withSlots_handlesTaken (x : List (Nat × Slot)) : (c.withSlots x).handlesTaken = c.handlesTaken := rfl

@[simp] theorem Chip.withExtFree_inReset (x : Nat) : (c.withExtFree x).inReset = c.inReset := rfl
@[simp] theorem Chip.withExtFree_self (x : Nat) : (c.withExtFree x).self = c.self := rfl
@[simp] theorem Chip.withExtFree_now (x : Nat) : (c.withExtFree x).now = c.now := rfl
@[simp] theorem Chip.withExtFree_freeIndex (x : Nat) : (c.withExtFree x).freeIndex = c.freeIndex := rfl
@[simp] theorem Chip.withExtFree_cmd (x : Nat) : (c.withExtFree x).cmd = c.cmd := rfl
@[simp] theorem Chip.withExtFree_fold (x : Nat) : (c.withExtFree x).fold = c.fold := rfl
@[simp] theorem Chip.withExtFree_intake (x : Nat) : (c.withExtFree x).intake = c.intake := rfl
@[simp] theorem Chip.withExtFree_link (x : Nat) : (c.withExtFree x).link = c.link := rfl
@[simp] theorem Chip.withExtFree_slots (x : Nat) : (c.withExtFree x).slots = c.slots := rfl
@[simp] theorem Chip.withExtFree_extFree (x : Nat) : (c.withExtFree x).extFree = x := rfl
@[simp] theorem Chip.withExtFree_pendFree (x : Nat) : (c.withExtFree x).pendFree = c.pendFree := rfl
@[simp] theorem Chip.withExtFree_cache (x : Nat) : (c.withExtFree x).cache = c.cache := rfl
@[simp] theorem Chip.withExtFree_retired (x : Nat) : (c.withExtFree x).retired = c.retired := rfl
@[simp] theorem Chip.withExtFree_nextSeq (x : Nat) : (c.withExtFree x).nextSeq = c.nextSeq := rfl
@[simp] theorem Chip.withExtFree_pair (x : Nat) : (c.withExtFree x).pair = c.pair := rfl
@[simp] theorem Chip.withExtFree_verdicts (x : Nat) : (c.withExtFree x).verdicts = c.verdicts := rfl
@[simp] theorem Chip.withExtFree_small (x : Nat) : (c.withExtFree x).small = c.small := rfl
@[simp] theorem Chip.withExtFree_large (x : Nat) : (c.withExtFree x).large = c.large := rfl
@[simp] theorem Chip.withExtFree_notice (x : Nat) : (c.withExtFree x).notice = c.notice := rfl
@[simp] theorem Chip.withExtFree_payloadWrites (x : Nat) : (c.withExtFree x).payloadWrites = c.payloadWrites := rfl
@[simp] theorem Chip.withExtFree_handlesTaken (x : Nat) : (c.withExtFree x).handlesTaken = c.handlesTaken := rfl

@[simp] theorem Chip.withPendFree_inReset (x : Nat) : (c.withPendFree x).inReset = c.inReset := rfl
@[simp] theorem Chip.withPendFree_self (x : Nat) : (c.withPendFree x).self = c.self := rfl
@[simp] theorem Chip.withPendFree_now (x : Nat) : (c.withPendFree x).now = c.now := rfl
@[simp] theorem Chip.withPendFree_freeIndex (x : Nat) : (c.withPendFree x).freeIndex = c.freeIndex := rfl
@[simp] theorem Chip.withPendFree_cmd (x : Nat) : (c.withPendFree x).cmd = c.cmd := rfl
@[simp] theorem Chip.withPendFree_fold (x : Nat) : (c.withPendFree x).fold = c.fold := rfl
@[simp] theorem Chip.withPendFree_intake (x : Nat) : (c.withPendFree x).intake = c.intake := rfl
@[simp] theorem Chip.withPendFree_link (x : Nat) : (c.withPendFree x).link = c.link := rfl
@[simp] theorem Chip.withPendFree_slots (x : Nat) : (c.withPendFree x).slots = c.slots := rfl
@[simp] theorem Chip.withPendFree_extFree (x : Nat) : (c.withPendFree x).extFree = c.extFree := rfl
@[simp] theorem Chip.withPendFree_pendFree (x : Nat) : (c.withPendFree x).pendFree = x := rfl
@[simp] theorem Chip.withPendFree_cache (x : Nat) : (c.withPendFree x).cache = c.cache := rfl
@[simp] theorem Chip.withPendFree_retired (x : Nat) : (c.withPendFree x).retired = c.retired := rfl
@[simp] theorem Chip.withPendFree_nextSeq (x : Nat) : (c.withPendFree x).nextSeq = c.nextSeq := rfl
@[simp] theorem Chip.withPendFree_pair (x : Nat) : (c.withPendFree x).pair = c.pair := rfl
@[simp] theorem Chip.withPendFree_verdicts (x : Nat) : (c.withPendFree x).verdicts = c.verdicts := rfl
@[simp] theorem Chip.withPendFree_small (x : Nat) : (c.withPendFree x).small = c.small := rfl
@[simp] theorem Chip.withPendFree_large (x : Nat) : (c.withPendFree x).large = c.large := rfl
@[simp] theorem Chip.withPendFree_notice (x : Nat) : (c.withPendFree x).notice = c.notice := rfl
@[simp] theorem Chip.withPendFree_payloadWrites (x : Nat) : (c.withPendFree x).payloadWrites = c.payloadWrites := rfl
@[simp] theorem Chip.withPendFree_handlesTaken (x : Nat) : (c.withPendFree x).handlesTaken = c.handlesTaken := rfl

@[simp] theorem Chip.withCache_inReset (x : List (Tag × Station)) : (c.withCache x).inReset = c.inReset := rfl
@[simp] theorem Chip.withCache_self (x : List (Tag × Station)) : (c.withCache x).self = c.self := rfl
@[simp] theorem Chip.withCache_now (x : List (Tag × Station)) : (c.withCache x).now = c.now := rfl
@[simp] theorem Chip.withCache_freeIndex (x : List (Tag × Station)) : (c.withCache x).freeIndex = c.freeIndex := rfl
@[simp] theorem Chip.withCache_cmd (x : List (Tag × Station)) : (c.withCache x).cmd = c.cmd := rfl
@[simp] theorem Chip.withCache_fold (x : List (Tag × Station)) : (c.withCache x).fold = c.fold := rfl
@[simp] theorem Chip.withCache_intake (x : List (Tag × Station)) : (c.withCache x).intake = c.intake := rfl
@[simp] theorem Chip.withCache_link (x : List (Tag × Station)) : (c.withCache x).link = c.link := rfl
@[simp] theorem Chip.withCache_slots (x : List (Tag × Station)) : (c.withCache x).slots = c.slots := rfl
@[simp] theorem Chip.withCache_extFree (x : List (Tag × Station)) : (c.withCache x).extFree = c.extFree := rfl
@[simp] theorem Chip.withCache_pendFree (x : List (Tag × Station)) : (c.withCache x).pendFree = c.pendFree := rfl
@[simp] theorem Chip.withCache_cache (x : List (Tag × Station)) : (c.withCache x).cache = x := rfl
@[simp] theorem Chip.withCache_retired (x : List (Tag × Station)) : (c.withCache x).retired = c.retired := rfl
@[simp] theorem Chip.withCache_nextSeq (x : List (Tag × Station)) : (c.withCache x).nextSeq = c.nextSeq := rfl
@[simp] theorem Chip.withCache_pair (x : List (Tag × Station)) : (c.withCache x).pair = c.pair := rfl
@[simp] theorem Chip.withCache_verdicts (x : List (Tag × Station)) : (c.withCache x).verdicts = c.verdicts := rfl
@[simp] theorem Chip.withCache_small (x : List (Tag × Station)) : (c.withCache x).small = c.small := rfl
@[simp] theorem Chip.withCache_large (x : List (Tag × Station)) : (c.withCache x).large = c.large := rfl
@[simp] theorem Chip.withCache_notice (x : List (Tag × Station)) : (c.withCache x).notice = c.notice := rfl
@[simp] theorem Chip.withCache_payloadWrites (x : List (Tag × Station)) : (c.withCache x).payloadWrites = c.payloadWrites := rfl
@[simp] theorem Chip.withCache_handlesTaken (x : List (Tag × Station)) : (c.withCache x).handlesTaken = c.handlesTaken := rfl

@[simp] theorem Chip.withRetired_inReset (x : List Tag) : (c.withRetired x).inReset = c.inReset := rfl
@[simp] theorem Chip.withRetired_self (x : List Tag) : (c.withRetired x).self = c.self := rfl
@[simp] theorem Chip.withRetired_now (x : List Tag) : (c.withRetired x).now = c.now := rfl
@[simp] theorem Chip.withRetired_freeIndex (x : List Tag) : (c.withRetired x).freeIndex = c.freeIndex := rfl
@[simp] theorem Chip.withRetired_cmd (x : List Tag) : (c.withRetired x).cmd = c.cmd := rfl
@[simp] theorem Chip.withRetired_fold (x : List Tag) : (c.withRetired x).fold = c.fold := rfl
@[simp] theorem Chip.withRetired_intake (x : List Tag) : (c.withRetired x).intake = c.intake := rfl
@[simp] theorem Chip.withRetired_link (x : List Tag) : (c.withRetired x).link = c.link := rfl
@[simp] theorem Chip.withRetired_slots (x : List Tag) : (c.withRetired x).slots = c.slots := rfl
@[simp] theorem Chip.withRetired_extFree (x : List Tag) : (c.withRetired x).extFree = c.extFree := rfl
@[simp] theorem Chip.withRetired_pendFree (x : List Tag) : (c.withRetired x).pendFree = c.pendFree := rfl
@[simp] theorem Chip.withRetired_cache (x : List Tag) : (c.withRetired x).cache = c.cache := rfl
@[simp] theorem Chip.withRetired_retired (x : List Tag) : (c.withRetired x).retired = x := rfl
@[simp] theorem Chip.withRetired_nextSeq (x : List Tag) : (c.withRetired x).nextSeq = c.nextSeq := rfl
@[simp] theorem Chip.withRetired_pair (x : List Tag) : (c.withRetired x).pair = c.pair := rfl
@[simp] theorem Chip.withRetired_verdicts (x : List Tag) : (c.withRetired x).verdicts = c.verdicts := rfl
@[simp] theorem Chip.withRetired_small (x : List Tag) : (c.withRetired x).small = c.small := rfl
@[simp] theorem Chip.withRetired_large (x : List Tag) : (c.withRetired x).large = c.large := rfl
@[simp] theorem Chip.withRetired_notice (x : List Tag) : (c.withRetired x).notice = c.notice := rfl
@[simp] theorem Chip.withRetired_payloadWrites (x : List Tag) : (c.withRetired x).payloadWrites = c.payloadWrites := rfl
@[simp] theorem Chip.withRetired_handlesTaken (x : List Tag) : (c.withRetired x).handlesTaken = c.handlesTaken := rfl

@[simp] theorem Chip.withNextSeq_inReset (x : Vector (BitVec 8) 8) : (c.withNextSeq x).inReset = c.inReset := rfl
@[simp] theorem Chip.withNextSeq_self (x : Vector (BitVec 8) 8) : (c.withNextSeq x).self = c.self := rfl
@[simp] theorem Chip.withNextSeq_now (x : Vector (BitVec 8) 8) : (c.withNextSeq x).now = c.now := rfl
@[simp] theorem Chip.withNextSeq_freeIndex (x : Vector (BitVec 8) 8) : (c.withNextSeq x).freeIndex = c.freeIndex := rfl
@[simp] theorem Chip.withNextSeq_cmd (x : Vector (BitVec 8) 8) : (c.withNextSeq x).cmd = c.cmd := rfl
@[simp] theorem Chip.withNextSeq_fold (x : Vector (BitVec 8) 8) : (c.withNextSeq x).fold = c.fold := rfl
@[simp] theorem Chip.withNextSeq_intake (x : Vector (BitVec 8) 8) : (c.withNextSeq x).intake = c.intake := rfl
@[simp] theorem Chip.withNextSeq_link (x : Vector (BitVec 8) 8) : (c.withNextSeq x).link = c.link := rfl
@[simp] theorem Chip.withNextSeq_slots (x : Vector (BitVec 8) 8) : (c.withNextSeq x).slots = c.slots := rfl
@[simp] theorem Chip.withNextSeq_extFree (x : Vector (BitVec 8) 8) : (c.withNextSeq x).extFree = c.extFree := rfl
@[simp] theorem Chip.withNextSeq_pendFree (x : Vector (BitVec 8) 8) : (c.withNextSeq x).pendFree = c.pendFree := rfl
@[simp] theorem Chip.withNextSeq_cache (x : Vector (BitVec 8) 8) : (c.withNextSeq x).cache = c.cache := rfl
@[simp] theorem Chip.withNextSeq_retired (x : Vector (BitVec 8) 8) : (c.withNextSeq x).retired = c.retired := rfl
@[simp] theorem Chip.withNextSeq_nextSeq (x : Vector (BitVec 8) 8) : (c.withNextSeq x).nextSeq = x := rfl
@[simp] theorem Chip.withNextSeq_pair (x : Vector (BitVec 8) 8) : (c.withNextSeq x).pair = c.pair := rfl
@[simp] theorem Chip.withNextSeq_verdicts (x : Vector (BitVec 8) 8) : (c.withNextSeq x).verdicts = c.verdicts := rfl
@[simp] theorem Chip.withNextSeq_small (x : Vector (BitVec 8) 8) : (c.withNextSeq x).small = c.small := rfl
@[simp] theorem Chip.withNextSeq_large (x : Vector (BitVec 8) 8) : (c.withNextSeq x).large = c.large := rfl
@[simp] theorem Chip.withNextSeq_notice (x : Vector (BitVec 8) 8) : (c.withNextSeq x).notice = c.notice := rfl
@[simp] theorem Chip.withNextSeq_payloadWrites (x : Vector (BitVec 8) 8) : (c.withNextSeq x).payloadWrites = c.payloadWrites := rfl
@[simp] theorem Chip.withNextSeq_handlesTaken (x : Vector (BitVec 8) 8) : (c.withNextSeq x).handlesTaken = c.handlesTaken := rfl

@[simp] theorem Chip.withPair_inReset (x : Vector (Option Nat) 8) : (c.withPair x).inReset = c.inReset := rfl
@[simp] theorem Chip.withPair_self (x : Vector (Option Nat) 8) : (c.withPair x).self = c.self := rfl
@[simp] theorem Chip.withPair_now (x : Vector (Option Nat) 8) : (c.withPair x).now = c.now := rfl
@[simp] theorem Chip.withPair_freeIndex (x : Vector (Option Nat) 8) : (c.withPair x).freeIndex = c.freeIndex := rfl
@[simp] theorem Chip.withPair_cmd (x : Vector (Option Nat) 8) : (c.withPair x).cmd = c.cmd := rfl
@[simp] theorem Chip.withPair_fold (x : Vector (Option Nat) 8) : (c.withPair x).fold = c.fold := rfl
@[simp] theorem Chip.withPair_intake (x : Vector (Option Nat) 8) : (c.withPair x).intake = c.intake := rfl
@[simp] theorem Chip.withPair_link (x : Vector (Option Nat) 8) : (c.withPair x).link = c.link := rfl
@[simp] theorem Chip.withPair_slots (x : Vector (Option Nat) 8) : (c.withPair x).slots = c.slots := rfl
@[simp] theorem Chip.withPair_extFree (x : Vector (Option Nat) 8) : (c.withPair x).extFree = c.extFree := rfl
@[simp] theorem Chip.withPair_pendFree (x : Vector (Option Nat) 8) : (c.withPair x).pendFree = c.pendFree := rfl
@[simp] theorem Chip.withPair_cache (x : Vector (Option Nat) 8) : (c.withPair x).cache = c.cache := rfl
@[simp] theorem Chip.withPair_retired (x : Vector (Option Nat) 8) : (c.withPair x).retired = c.retired := rfl
@[simp] theorem Chip.withPair_nextSeq (x : Vector (Option Nat) 8) : (c.withPair x).nextSeq = c.nextSeq := rfl
@[simp] theorem Chip.withPair_pair (x : Vector (Option Nat) 8) : (c.withPair x).pair = x := rfl
@[simp] theorem Chip.withPair_verdicts (x : Vector (Option Nat) 8) : (c.withPair x).verdicts = c.verdicts := rfl
@[simp] theorem Chip.withPair_small (x : Vector (Option Nat) 8) : (c.withPair x).small = c.small := rfl
@[simp] theorem Chip.withPair_large (x : Vector (Option Nat) 8) : (c.withPair x).large = c.large := rfl
@[simp] theorem Chip.withPair_notice (x : Vector (Option Nat) 8) : (c.withPair x).notice = c.notice := rfl
@[simp] theorem Chip.withPair_payloadWrites (x : Vector (Option Nat) 8) : (c.withPair x).payloadWrites = c.payloadWrites := rfl
@[simp] theorem Chip.withPair_handlesTaken (x : Vector (Option Nat) 8) : (c.withPair x).handlesTaken = c.handlesTaken := rfl

@[simp] theorem Chip.withVerdicts_inReset (x : Vector (Option VerdictBody) 8) : (c.withVerdicts x).inReset = c.inReset := rfl
@[simp] theorem Chip.withVerdicts_self (x : Vector (Option VerdictBody) 8) : (c.withVerdicts x).self = c.self := rfl
@[simp] theorem Chip.withVerdicts_now (x : Vector (Option VerdictBody) 8) : (c.withVerdicts x).now = c.now := rfl
@[simp] theorem Chip.withVerdicts_freeIndex (x : Vector (Option VerdictBody) 8) : (c.withVerdicts x).freeIndex = c.freeIndex := rfl
@[simp] theorem Chip.withVerdicts_cmd (x : Vector (Option VerdictBody) 8) : (c.withVerdicts x).cmd = c.cmd := rfl
@[simp] theorem Chip.withVerdicts_fold (x : Vector (Option VerdictBody) 8) : (c.withVerdicts x).fold = c.fold := rfl
@[simp] theorem Chip.withVerdicts_intake (x : Vector (Option VerdictBody) 8) : (c.withVerdicts x).intake = c.intake := rfl
@[simp] theorem Chip.withVerdicts_link (x : Vector (Option VerdictBody) 8) : (c.withVerdicts x).link = c.link := rfl
@[simp] theorem Chip.withVerdicts_slots (x : Vector (Option VerdictBody) 8) : (c.withVerdicts x).slots = c.slots := rfl
@[simp] theorem Chip.withVerdicts_extFree (x : Vector (Option VerdictBody) 8) : (c.withVerdicts x).extFree = c.extFree := rfl
@[simp] theorem Chip.withVerdicts_pendFree (x : Vector (Option VerdictBody) 8) : (c.withVerdicts x).pendFree = c.pendFree := rfl
@[simp] theorem Chip.withVerdicts_cache (x : Vector (Option VerdictBody) 8) : (c.withVerdicts x).cache = c.cache := rfl
@[simp] theorem Chip.withVerdicts_retired (x : Vector (Option VerdictBody) 8) : (c.withVerdicts x).retired = c.retired := rfl
@[simp] theorem Chip.withVerdicts_nextSeq (x : Vector (Option VerdictBody) 8) : (c.withVerdicts x).nextSeq = c.nextSeq := rfl
@[simp] theorem Chip.withVerdicts_pair (x : Vector (Option VerdictBody) 8) : (c.withVerdicts x).pair = c.pair := rfl
@[simp] theorem Chip.withVerdicts_verdicts (x : Vector (Option VerdictBody) 8) : (c.withVerdicts x).verdicts = x := rfl
@[simp] theorem Chip.withVerdicts_small (x : Vector (Option VerdictBody) 8) : (c.withVerdicts x).small = c.small := rfl
@[simp] theorem Chip.withVerdicts_large (x : Vector (Option VerdictBody) 8) : (c.withVerdicts x).large = c.large := rfl
@[simp] theorem Chip.withVerdicts_notice (x : Vector (Option VerdictBody) 8) : (c.withVerdicts x).notice = c.notice := rfl
@[simp] theorem Chip.withVerdicts_payloadWrites (x : Vector (Option VerdictBody) 8) : (c.withVerdicts x).payloadWrites = c.payloadWrites := rfl
@[simp] theorem Chip.withVerdicts_handlesTaken (x : Vector (Option VerdictBody) 8) : (c.withVerdicts x).handlesTaken = c.handlesTaken := rfl

@[simp] theorem Chip.withSmall_inReset (x : BufferPool) : (c.withSmall x).inReset = c.inReset := rfl
@[simp] theorem Chip.withSmall_self (x : BufferPool) : (c.withSmall x).self = c.self := rfl
@[simp] theorem Chip.withSmall_now (x : BufferPool) : (c.withSmall x).now = c.now := rfl
@[simp] theorem Chip.withSmall_freeIndex (x : BufferPool) : (c.withSmall x).freeIndex = c.freeIndex := rfl
@[simp] theorem Chip.withSmall_cmd (x : BufferPool) : (c.withSmall x).cmd = c.cmd := rfl
@[simp] theorem Chip.withSmall_fold (x : BufferPool) : (c.withSmall x).fold = c.fold := rfl
@[simp] theorem Chip.withSmall_intake (x : BufferPool) : (c.withSmall x).intake = c.intake := rfl
@[simp] theorem Chip.withSmall_link (x : BufferPool) : (c.withSmall x).link = c.link := rfl
@[simp] theorem Chip.withSmall_slots (x : BufferPool) : (c.withSmall x).slots = c.slots := rfl
@[simp] theorem Chip.withSmall_extFree (x : BufferPool) : (c.withSmall x).extFree = c.extFree := rfl
@[simp] theorem Chip.withSmall_pendFree (x : BufferPool) : (c.withSmall x).pendFree = c.pendFree := rfl
@[simp] theorem Chip.withSmall_cache (x : BufferPool) : (c.withSmall x).cache = c.cache := rfl
@[simp] theorem Chip.withSmall_retired (x : BufferPool) : (c.withSmall x).retired = c.retired := rfl
@[simp] theorem Chip.withSmall_nextSeq (x : BufferPool) : (c.withSmall x).nextSeq = c.nextSeq := rfl
@[simp] theorem Chip.withSmall_pair (x : BufferPool) : (c.withSmall x).pair = c.pair := rfl
@[simp] theorem Chip.withSmall_verdicts (x : BufferPool) : (c.withSmall x).verdicts = c.verdicts := rfl
@[simp] theorem Chip.withSmall_small (x : BufferPool) : (c.withSmall x).small = x := rfl
@[simp] theorem Chip.withSmall_large (x : BufferPool) : (c.withSmall x).large = c.large := rfl
@[simp] theorem Chip.withSmall_notice (x : BufferPool) : (c.withSmall x).notice = c.notice := rfl
@[simp] theorem Chip.withSmall_payloadWrites (x : BufferPool) : (c.withSmall x).payloadWrites = c.payloadWrites := rfl
@[simp] theorem Chip.withSmall_handlesTaken (x : BufferPool) : (c.withSmall x).handlesTaken = c.handlesTaken := rfl

@[simp] theorem Chip.withLarge_inReset (x : BufferPool) : (c.withLarge x).inReset = c.inReset := rfl
@[simp] theorem Chip.withLarge_self (x : BufferPool) : (c.withLarge x).self = c.self := rfl
@[simp] theorem Chip.withLarge_now (x : BufferPool) : (c.withLarge x).now = c.now := rfl
@[simp] theorem Chip.withLarge_freeIndex (x : BufferPool) : (c.withLarge x).freeIndex = c.freeIndex := rfl
@[simp] theorem Chip.withLarge_cmd (x : BufferPool) : (c.withLarge x).cmd = c.cmd := rfl
@[simp] theorem Chip.withLarge_fold (x : BufferPool) : (c.withLarge x).fold = c.fold := rfl
@[simp] theorem Chip.withLarge_intake (x : BufferPool) : (c.withLarge x).intake = c.intake := rfl
@[simp] theorem Chip.withLarge_link (x : BufferPool) : (c.withLarge x).link = c.link := rfl
@[simp] theorem Chip.withLarge_slots (x : BufferPool) : (c.withLarge x).slots = c.slots := rfl
@[simp] theorem Chip.withLarge_extFree (x : BufferPool) : (c.withLarge x).extFree = c.extFree := rfl
@[simp] theorem Chip.withLarge_pendFree (x : BufferPool) : (c.withLarge x).pendFree = c.pendFree := rfl
@[simp] theorem Chip.withLarge_cache (x : BufferPool) : (c.withLarge x).cache = c.cache := rfl
@[simp] theorem Chip.withLarge_retired (x : BufferPool) : (c.withLarge x).retired = c.retired := rfl
@[simp] theorem Chip.withLarge_nextSeq (x : BufferPool) : (c.withLarge x).nextSeq = c.nextSeq := rfl
@[simp] theorem Chip.withLarge_pair (x : BufferPool) : (c.withLarge x).pair = c.pair := rfl
@[simp] theorem Chip.withLarge_verdicts (x : BufferPool) : (c.withLarge x).verdicts = c.verdicts := rfl
@[simp] theorem Chip.withLarge_small (x : BufferPool) : (c.withLarge x).small = c.small := rfl
@[simp] theorem Chip.withLarge_large (x : BufferPool) : (c.withLarge x).large = x := rfl
@[simp] theorem Chip.withLarge_notice (x : BufferPool) : (c.withLarge x).notice = c.notice := rfl
@[simp] theorem Chip.withLarge_payloadWrites (x : BufferPool) : (c.withLarge x).payloadWrites = c.payloadWrites := rfl
@[simp] theorem Chip.withLarge_handlesTaken (x : BufferPool) : (c.withLarge x).handlesTaken = c.handlesTaken := rfl

@[simp] theorem Chip.withNotice_inReset (x : NoticeUnit) : (c.withNotice x).inReset = c.inReset := rfl
@[simp] theorem Chip.withNotice_self (x : NoticeUnit) : (c.withNotice x).self = c.self := rfl
@[simp] theorem Chip.withNotice_now (x : NoticeUnit) : (c.withNotice x).now = c.now := rfl
@[simp] theorem Chip.withNotice_freeIndex (x : NoticeUnit) : (c.withNotice x).freeIndex = c.freeIndex := rfl
@[simp] theorem Chip.withNotice_cmd (x : NoticeUnit) : (c.withNotice x).cmd = c.cmd := rfl
@[simp] theorem Chip.withNotice_fold (x : NoticeUnit) : (c.withNotice x).fold = c.fold := rfl
@[simp] theorem Chip.withNotice_intake (x : NoticeUnit) : (c.withNotice x).intake = c.intake := rfl
@[simp] theorem Chip.withNotice_link (x : NoticeUnit) : (c.withNotice x).link = c.link := rfl
@[simp] theorem Chip.withNotice_slots (x : NoticeUnit) : (c.withNotice x).slots = c.slots := rfl
@[simp] theorem Chip.withNotice_extFree (x : NoticeUnit) : (c.withNotice x).extFree = c.extFree := rfl
@[simp] theorem Chip.withNotice_pendFree (x : NoticeUnit) : (c.withNotice x).pendFree = c.pendFree := rfl
@[simp] theorem Chip.withNotice_cache (x : NoticeUnit) : (c.withNotice x).cache = c.cache := rfl
@[simp] theorem Chip.withNotice_retired (x : NoticeUnit) : (c.withNotice x).retired = c.retired := rfl
@[simp] theorem Chip.withNotice_nextSeq (x : NoticeUnit) : (c.withNotice x).nextSeq = c.nextSeq := rfl
@[simp] theorem Chip.withNotice_pair (x : NoticeUnit) : (c.withNotice x).pair = c.pair := rfl
@[simp] theorem Chip.withNotice_verdicts (x : NoticeUnit) : (c.withNotice x).verdicts = c.verdicts := rfl
@[simp] theorem Chip.withNotice_small (x : NoticeUnit) : (c.withNotice x).small = c.small := rfl
@[simp] theorem Chip.withNotice_large (x : NoticeUnit) : (c.withNotice x).large = c.large := rfl
@[simp] theorem Chip.withNotice_notice (x : NoticeUnit) : (c.withNotice x).notice = x := rfl
@[simp] theorem Chip.withNotice_payloadWrites (x : NoticeUnit) : (c.withNotice x).payloadWrites = c.payloadWrites := rfl
@[simp] theorem Chip.withNotice_handlesTaken (x : NoticeUnit) : (c.withNotice x).handlesTaken = c.handlesTaken := rfl

@[simp] theorem Chip.withPayloadWrites_inReset (x : List PayloadWrite) : (c.withPayloadWrites x).inReset = c.inReset := rfl
@[simp] theorem Chip.withPayloadWrites_self (x : List PayloadWrite) : (c.withPayloadWrites x).self = c.self := rfl
@[simp] theorem Chip.withPayloadWrites_now (x : List PayloadWrite) : (c.withPayloadWrites x).now = c.now := rfl
@[simp] theorem Chip.withPayloadWrites_freeIndex (x : List PayloadWrite) : (c.withPayloadWrites x).freeIndex = c.freeIndex := rfl
@[simp] theorem Chip.withPayloadWrites_cmd (x : List PayloadWrite) : (c.withPayloadWrites x).cmd = c.cmd := rfl
@[simp] theorem Chip.withPayloadWrites_fold (x : List PayloadWrite) : (c.withPayloadWrites x).fold = c.fold := rfl
@[simp] theorem Chip.withPayloadWrites_intake (x : List PayloadWrite) : (c.withPayloadWrites x).intake = c.intake := rfl
@[simp] theorem Chip.withPayloadWrites_link (x : List PayloadWrite) : (c.withPayloadWrites x).link = c.link := rfl
@[simp] theorem Chip.withPayloadWrites_slots (x : List PayloadWrite) : (c.withPayloadWrites x).slots = c.slots := rfl
@[simp] theorem Chip.withPayloadWrites_extFree (x : List PayloadWrite) : (c.withPayloadWrites x).extFree = c.extFree := rfl
@[simp] theorem Chip.withPayloadWrites_pendFree (x : List PayloadWrite) : (c.withPayloadWrites x).pendFree = c.pendFree := rfl
@[simp] theorem Chip.withPayloadWrites_cache (x : List PayloadWrite) : (c.withPayloadWrites x).cache = c.cache := rfl
@[simp] theorem Chip.withPayloadWrites_retired (x : List PayloadWrite) : (c.withPayloadWrites x).retired = c.retired := rfl
@[simp] theorem Chip.withPayloadWrites_nextSeq (x : List PayloadWrite) : (c.withPayloadWrites x).nextSeq = c.nextSeq := rfl
@[simp] theorem Chip.withPayloadWrites_pair (x : List PayloadWrite) : (c.withPayloadWrites x).pair = c.pair := rfl
@[simp] theorem Chip.withPayloadWrites_verdicts (x : List PayloadWrite) : (c.withPayloadWrites x).verdicts = c.verdicts := rfl
@[simp] theorem Chip.withPayloadWrites_small (x : List PayloadWrite) : (c.withPayloadWrites x).small = c.small := rfl
@[simp] theorem Chip.withPayloadWrites_large (x : List PayloadWrite) : (c.withPayloadWrites x).large = c.large := rfl
@[simp] theorem Chip.withPayloadWrites_notice (x : List PayloadWrite) : (c.withPayloadWrites x).notice = c.notice := rfl
@[simp] theorem Chip.withPayloadWrites_payloadWrites (x : List PayloadWrite) : (c.withPayloadWrites x).payloadWrites = x := rfl
@[simp] theorem Chip.withPayloadWrites_handlesTaken (x : List PayloadWrite) : (c.withPayloadWrites x).handlesTaken = c.handlesTaken := rfl

@[simp] theorem Chip.withHandlesTaken_inReset (x : Nat) : (c.withHandlesTaken x).inReset = c.inReset := rfl
@[simp] theorem Chip.withHandlesTaken_self (x : Nat) : (c.withHandlesTaken x).self = c.self := rfl
@[simp] theorem Chip.withHandlesTaken_now (x : Nat) : (c.withHandlesTaken x).now = c.now := rfl
@[simp] theorem Chip.withHandlesTaken_freeIndex (x : Nat) : (c.withHandlesTaken x).freeIndex = c.freeIndex := rfl
@[simp] theorem Chip.withHandlesTaken_cmd (x : Nat) : (c.withHandlesTaken x).cmd = c.cmd := rfl
@[simp] theorem Chip.withHandlesTaken_fold (x : Nat) : (c.withHandlesTaken x).fold = c.fold := rfl
@[simp] theorem Chip.withHandlesTaken_intake (x : Nat) : (c.withHandlesTaken x).intake = c.intake := rfl
@[simp] theorem Chip.withHandlesTaken_link (x : Nat) : (c.withHandlesTaken x).link = c.link := rfl
@[simp] theorem Chip.withHandlesTaken_slots (x : Nat) : (c.withHandlesTaken x).slots = c.slots := rfl
@[simp] theorem Chip.withHandlesTaken_extFree (x : Nat) : (c.withHandlesTaken x).extFree = c.extFree := rfl
@[simp] theorem Chip.withHandlesTaken_pendFree (x : Nat) : (c.withHandlesTaken x).pendFree = c.pendFree := rfl
@[simp] theorem Chip.withHandlesTaken_cache (x : Nat) : (c.withHandlesTaken x).cache = c.cache := rfl
@[simp] theorem Chip.withHandlesTaken_retired (x : Nat) : (c.withHandlesTaken x).retired = c.retired := rfl
@[simp] theorem Chip.withHandlesTaken_nextSeq (x : Nat) : (c.withHandlesTaken x).nextSeq = c.nextSeq := rfl
@[simp] theorem Chip.withHandlesTaken_pair (x : Nat) : (c.withHandlesTaken x).pair = c.pair := rfl
@[simp] theorem Chip.withHandlesTaken_verdicts (x : Nat) : (c.withHandlesTaken x).verdicts = c.verdicts := rfl
@[simp] theorem Chip.withHandlesTaken_small (x : Nat) : (c.withHandlesTaken x).small = c.small := rfl
@[simp] theorem Chip.withHandlesTaken_large (x : Nat) : (c.withHandlesTaken x).large = c.large := rfl
@[simp] theorem Chip.withHandlesTaken_notice (x : Nat) : (c.withHandlesTaken x).notice = c.notice := rfl
@[simp] theorem Chip.withHandlesTaken_payloadWrites (x : Nat) : (c.withHandlesTaken x).payloadWrites = c.payloadWrites := rfl
@[simp] theorem Chip.withHandlesTaken_handlesTaken (x : Nat) : (c.withHandlesTaken x).handlesTaken = x := rfl

@[simp] theorem State.withChip_chip (x : Chip) : (s.withChip x).chip = x := rfl
@[simp] theorem State.withChip_mem (x : Chip) : (s.withChip x).mem = s.mem := rfl
@[simp] theorem State.withChip_pending (x : Chip) : (s.withChip x).pending = s.pending := rfl
@[simp] theorem State.withMem_chip (x : Memory) : (s.withMem x).chip = s.chip := rfl
@[simp] theorem State.withMem_mem (x : Memory) : (s.withMem x).mem = x := rfl
@[simp] theorem State.withMem_pending (x : Memory) : (s.withMem x).pending = s.pending := rfl
@[simp] theorem State.withPending_chip (x : List Instr) : (s.withPending x).chip = s.chip := rfl
@[simp] theorem State.withPending_mem (x : List Instr) : (s.withPending x).mem = s.mem := rfl
@[simp] theorem State.withPending_pending (x : List Instr) : (s.withPending x).pending = x := rfl

end Sys2Proof.Machine
end

