-- ==== Sys2Proof/Laws/Frames.lean ====
section
/-! SUPPORT. The frame of each shared operation: every part of the station that it never changes, one lemma for each operation. -/

namespace Sys2Proof.Machine

open Chip

/-- What `reach` leaves unchanged. -/
@[simp] theorem Chip.reach_frame (c : Chip) (d : Nat) :
    (c.reach d).inReset = c.inReset ∧ (c.reach d).self = c.self ∧ (c.reach d).freeIndex = c.freeIndex ∧
    (c.reach d).cmd = c.cmd ∧ (c.reach d).fold = c.fold ∧ (c.reach d).intake = c.intake ∧ (c.reach d).link = c.link ∧
    (c.reach d).slots = c.slots ∧ (c.reach d).extFree = c.extFree ∧ (c.reach d).pendFree = c.pendFree ∧
    (c.reach d).cache = c.cache ∧ (c.reach d).retired = c.retired ∧ (c.reach d).nextSeq = c.nextSeq ∧
    (c.reach d).pair = c.pair ∧ (c.reach d).verdicts = c.verdicts ∧ (c.reach d).small = c.small ∧
    (c.reach d).large = c.large ∧ (c.reach d).notice = c.notice ∧ (c.reach d).payloadWrites = c.payloadWrites ∧
    (c.reach d).handlesTaken = c.handlesTaken := by
  simp [reach]

/-- What `bump` leaves unchanged. -/
@[simp] theorem Chip.bump_frame (c : Chip) (i : Fin 16) :
    (c.bump i).inReset = c.inReset ∧ (c.bump i).self = c.self ∧ (c.bump i).now = c.now ∧
    (c.bump i).freeIndex = c.freeIndex ∧ (c.bump i).cmd.mode = c.cmd.mode ∧ (c.bump i).cmd.staging = c.cmd.staging ∧
    (c.bump i).cmd.setup = c.cmd.setup ∧ (c.bump i).cmd.memory = c.cmd.memory ∧
    (c.bump i).cmd.restartNumber = c.cmd.restartNumber ∧ (c.bump i).cmd.faultAtEnd = c.cmd.faultAtEnd ∧
    (c.bump i).cmd.faultPin = c.cmd.faultPin ∧ (c.bump i).fold = c.fold ∧ (c.bump i).intake = c.intake ∧
    (c.bump i).link = c.link ∧ (c.bump i).slots = c.slots ∧ (c.bump i).extFree = c.extFree ∧
    (c.bump i).pendFree = c.pendFree ∧ (c.bump i).cache = c.cache ∧ (c.bump i).retired = c.retired ∧
    (c.bump i).nextSeq = c.nextSeq ∧ (c.bump i).pair = c.pair ∧ (c.bump i).verdicts = c.verdicts ∧
    (c.bump i).small = c.small ∧ (c.bump i).large = c.large ∧ (c.bump i).notice = c.notice ∧
    (c.bump i).payloadWrites = c.payloadWrites ∧
    (c.bump i).handlesTaken = c.handlesTaken := by
  simp [bump]

/-- What `setContext` leaves unchanged. -/
@[simp] theorem Chip.setContext_frame (c : Chip) (i : Nat) (ctx : Context) :
    (c.setContext i ctx).inReset = c.inReset ∧ (c.setContext i ctx).self = c.self ∧ (c.setContext i ctx).now = c.now ∧
    (c.setContext i ctx).freeIndex = c.freeIndex ∧ (c.setContext i ctx).cmd = c.cmd ∧ (c.setContext i ctx).fold = c.fold ∧
    (c.setContext i ctx).intake = c.intake ∧ (c.setContext i ctx).link = c.link ∧ (c.setContext i ctx).extFree = c.extFree ∧
    (c.setContext i ctx).pendFree = c.pendFree ∧ (c.setContext i ctx).cache = c.cache ∧
    (c.setContext i ctx).retired = c.retired ∧ (c.setContext i ctx).nextSeq = c.nextSeq ∧
    (c.setContext i ctx).pair = c.pair ∧ (c.setContext i ctx).verdicts = c.verdicts ∧ (c.setContext i ctx).small = c.small ∧
    (c.setContext i ctx).large = c.large ∧ (c.setContext i ctx).notice = c.notice ∧
    (c.setContext i ctx).payloadWrites = c.payloadWrites ∧
    (c.setContext i ctx).handlesTaken = c.handlesTaken := by
  simp [setContext]

/-- What `setAnchor` leaves unchanged. -/
@[simp] theorem Chip.setAnchor_frame (c : Chip) (i : Nat) (ctx : Context) (a : Anchor) :
    (c.setAnchor i ctx a).inReset = c.inReset ∧ (c.setAnchor i ctx a).self = c.self ∧ (c.setAnchor i ctx a).now = c.now ∧
    (c.setAnchor i ctx a).freeIndex = c.freeIndex ∧ (c.setAnchor i ctx a).cmd = c.cmd ∧
    (c.setAnchor i ctx a).fold = c.fold ∧ (c.setAnchor i ctx a).intake = c.intake ∧ (c.setAnchor i ctx a).link = c.link ∧
    (c.setAnchor i ctx a).extFree = c.extFree ∧ (c.setAnchor i ctx a).pendFree = c.pendFree ∧
    (c.setAnchor i ctx a).cache = c.cache ∧ (c.setAnchor i ctx a).retired = c.retired ∧
    (c.setAnchor i ctx a).nextSeq = c.nextSeq ∧ (c.setAnchor i ctx a).pair = c.pair ∧
    (c.setAnchor i ctx a).verdicts = c.verdicts ∧ (c.setAnchor i ctx a).small = c.small ∧
    (c.setAnchor i ctx a).large = c.large ∧ (c.setAnchor i ctx a).notice = c.notice ∧
    (c.setAnchor i ctx a).payloadWrites = c.payloadWrites ∧
    (c.setAnchor i ctx a).handlesTaken = c.handlesTaken := by
  simp [setAnchor]

/-- What `setFeeder` leaves unchanged. -/
@[simp] theorem Chip.setFeeder_frame (c : Chip) (i : Nat) (ctx : Context) (f : Feeder) :
    (c.setFeeder i ctx f).inReset = c.inReset ∧ (c.setFeeder i ctx f).self = c.self ∧ (c.setFeeder i ctx f).now = c.now ∧
    (c.setFeeder i ctx f).freeIndex = c.freeIndex ∧ (c.setFeeder i ctx f).cmd = c.cmd ∧
    (c.setFeeder i ctx f).fold = c.fold ∧ (c.setFeeder i ctx f).intake = c.intake ∧ (c.setFeeder i ctx f).link = c.link ∧
    (c.setFeeder i ctx f).extFree = c.extFree ∧ (c.setFeeder i ctx f).pendFree = c.pendFree ∧
    (c.setFeeder i ctx f).cache = c.cache ∧ (c.setFeeder i ctx f).retired = c.retired ∧
    (c.setFeeder i ctx f).nextSeq = c.nextSeq ∧ (c.setFeeder i ctx f).pair = c.pair ∧
    (c.setFeeder i ctx f).verdicts = c.verdicts ∧ (c.setFeeder i ctx f).small = c.small ∧
    (c.setFeeder i ctx f).large = c.large ∧ (c.setFeeder i ctx f).notice = c.notice ∧
    (c.setFeeder i ctx f).payloadWrites = c.payloadWrites ∧
    (c.setFeeder i ctx f).handlesTaken = c.handlesTaken := by
  simp [setFeeder]

/-- What `freeSlot` leaves unchanged. -/
@[simp] theorem Chip.freeSlot_frame (c : Chip) (i : Nat) :
    (c.freeSlot i).inReset = c.inReset ∧ (c.freeSlot i).self = c.self ∧ (c.freeSlot i).now = c.now ∧
    (c.freeSlot i).freeIndex = c.freeIndex ∧ (c.freeSlot i).cmd = c.cmd ∧ (c.freeSlot i).fold = c.fold ∧
    (c.freeSlot i).intake = c.intake ∧ (c.freeSlot i).link = c.link ∧ (c.freeSlot i).extFree = c.extFree ∧
    (c.freeSlot i).pendFree = c.pendFree ∧ (c.freeSlot i).cache = c.cache ∧ (c.freeSlot i).retired = c.retired ∧
    (c.freeSlot i).nextSeq = c.nextSeq ∧ (c.freeSlot i).pair = c.pair ∧ (c.freeSlot i).verdicts = c.verdicts ∧
    (c.freeSlot i).small = c.small ∧ (c.freeSlot i).large = c.large ∧ (c.freeSlot i).notice = c.notice ∧
    (c.freeSlot i).payloadWrites = c.payloadWrites ∧
    (c.freeSlot i).handlesTaken = c.handlesTaken := by
  simp [freeSlot]

/-- What `returnExtents` leaves unchanged. -/
@[simp] theorem Chip.returnExtents_frame (c : Chip) (n : Nat) :
    (c.returnExtents n).inReset = c.inReset ∧ (c.returnExtents n).self = c.self ∧ (c.returnExtents n).now = c.now ∧
    (c.returnExtents n).freeIndex = c.freeIndex ∧ (c.returnExtents n).cmd = c.cmd ∧ (c.returnExtents n).fold = c.fold ∧
    (c.returnExtents n).intake = c.intake ∧ (c.returnExtents n).link = c.link ∧ (c.returnExtents n).slots = c.slots ∧
    (c.returnExtents n).pendFree = c.pendFree ∧ (c.returnExtents n).cache = c.cache ∧
    (c.returnExtents n).retired = c.retired ∧ (c.returnExtents n).nextSeq = c.nextSeq ∧ (c.returnExtents n).pair = c.pair ∧
    (c.returnExtents n).verdicts = c.verdicts ∧ (c.returnExtents n).small = c.small ∧ (c.returnExtents n).large = c.large ∧
    (c.returnExtents n).notice = c.notice ∧ (c.returnExtents n).payloadWrites = c.payloadWrites ∧
    (c.returnExtents n).handlesTaken = c.handlesTaken := by
  simp [returnExtents]

/-- What `returnEntries` leaves unchanged. -/
@[simp] theorem Chip.returnEntries_frame (c : Chip) (n : Nat) :
    (c.returnEntries n).inReset = c.inReset ∧ (c.returnEntries n).self = c.self ∧ (c.returnEntries n).now = c.now ∧
    (c.returnEntries n).freeIndex = c.freeIndex ∧ (c.returnEntries n).cmd = c.cmd ∧ (c.returnEntries n).fold = c.fold ∧
    (c.returnEntries n).intake = c.intake ∧ (c.returnEntries n).link = c.link ∧ (c.returnEntries n).slots = c.slots ∧
    (c.returnEntries n).extFree = c.extFree ∧ (c.returnEntries n).cache = c.cache ∧
    (c.returnEntries n).retired = c.retired ∧ (c.returnEntries n).nextSeq = c.nextSeq ∧ (c.returnEntries n).pair = c.pair ∧
    (c.returnEntries n).verdicts = c.verdicts ∧ (c.returnEntries n).small = c.small ∧ (c.returnEntries n).large = c.large ∧
    (c.returnEntries n).notice = c.notice ∧ (c.returnEntries n).payloadWrites = c.payloadWrites ∧
    (c.returnEntries n).handlesTaken = c.handlesTaken := by
  simp [returnEntries]

/-- What `moveExtents` leaves unchanged. -/
@[simp] theorem Chip.moveExtents_frame (c : Chip) (n m : Nat) :
    (c.moveExtents n m).inReset = c.inReset ∧ (c.moveExtents n m).self = c.self ∧ (c.moveExtents n m).now = c.now ∧
    (c.moveExtents n m).freeIndex = c.freeIndex ∧ (c.moveExtents n m).cmd = c.cmd ∧ (c.moveExtents n m).fold = c.fold ∧
    (c.moveExtents n m).intake = c.intake ∧ (c.moveExtents n m).link = c.link ∧ (c.moveExtents n m).slots = c.slots ∧
    (c.moveExtents n m).pendFree = c.pendFree ∧ (c.moveExtents n m).cache = c.cache ∧
    (c.moveExtents n m).retired = c.retired ∧ (c.moveExtents n m).nextSeq = c.nextSeq ∧ (c.moveExtents n m).pair = c.pair ∧
    (c.moveExtents n m).verdicts = c.verdicts ∧ (c.moveExtents n m).small = c.small ∧ (c.moveExtents n m).large = c.large ∧
    (c.moveExtents n m).notice = c.notice ∧ (c.moveExtents n m).payloadWrites = c.payloadWrites ∧
    (c.moveExtents n m).handlesTaken = c.handlesTaken := by
  simp [moveExtents]

/-- What `withPool` leaves unchanged. -/
@[simp] theorem Chip.withPool_frame (c : Chip) (cls : BufClass) (p : BufferPool) :
    (c.withPool cls p).inReset = c.inReset ∧ (c.withPool cls p).self = c.self ∧ (c.withPool cls p).now = c.now ∧
    (c.withPool cls p).freeIndex = c.freeIndex ∧ (c.withPool cls p).cmd = c.cmd ∧ (c.withPool cls p).fold = c.fold ∧
    (c.withPool cls p).intake = c.intake ∧ (c.withPool cls p).link = c.link ∧ (c.withPool cls p).slots = c.slots ∧
    (c.withPool cls p).extFree = c.extFree ∧ (c.withPool cls p).pendFree = c.pendFree ∧ (c.withPool cls p).cache = c.cache ∧
    (c.withPool cls p).retired = c.retired ∧ (c.withPool cls p).nextSeq = c.nextSeq ∧ (c.withPool cls p).pair = c.pair ∧
    (c.withPool cls p).verdicts = c.verdicts ∧ (c.withPool cls p).notice = c.notice ∧
    (c.withPool cls p).payloadWrites = c.payloadWrites ∧
    (c.withPool cls p).handlesTaken = c.handlesTaken := by
  cases cls <;> simp [withPool]

/-- What `recycle` leaves unchanged. -/
@[simp] theorem Chip.recycle_frame (c : Chip) (h : Handle) :
    (c.recycle h).inReset = c.inReset ∧ (c.recycle h).self = c.self ∧ (c.recycle h).now = c.now ∧
    (c.recycle h).freeIndex = c.freeIndex ∧ (c.recycle h).cmd = c.cmd ∧ (c.recycle h).fold = c.fold ∧
    (c.recycle h).intake = c.intake ∧ (c.recycle h).link = c.link ∧ (c.recycle h).slots = c.slots ∧
    (c.recycle h).extFree = c.extFree ∧ (c.recycle h).pendFree = c.pendFree ∧ (c.recycle h).cache = c.cache ∧
    (c.recycle h).retired = c.retired ∧ (c.recycle h).nextSeq = c.nextSeq ∧ (c.recycle h).pair = c.pair ∧
    (c.recycle h).verdicts = c.verdicts ∧ (c.recycle h).notice = c.notice ∧
    (c.recycle h).payloadWrites = c.payloadWrites ∧
    (c.recycle h).handlesTaken = c.handlesTaken := by
  simp [recycle]

/-- What `testRefill` leaves unchanged. -/
@[simp] theorem Chip.testRefill_frame (c : Chip) (cls : BufClass) :
    (c.testRefill cls).inReset = c.inReset ∧ (c.testRefill cls).self = c.self ∧ (c.testRefill cls).now = c.now ∧
    (c.testRefill cls).freeIndex = c.freeIndex ∧ (c.testRefill cls).cmd = c.cmd ∧ (c.testRefill cls).fold = c.fold ∧
    (c.testRefill cls).intake = c.intake ∧ (c.testRefill cls).link = c.link ∧ (c.testRefill cls).slots = c.slots ∧
    (c.testRefill cls).extFree = c.extFree ∧ (c.testRefill cls).pendFree = c.pendFree ∧ (c.testRefill cls).cache = c.cache ∧
    (c.testRefill cls).retired = c.retired ∧ (c.testRefill cls).nextSeq = c.nextSeq ∧ (c.testRefill cls).pair = c.pair ∧
    (c.testRefill cls).verdicts = c.verdicts ∧ (c.testRefill cls).notice = c.notice ∧
    (c.testRefill cls).payloadWrites = c.payloadWrites ∧
    (c.testRefill cls).handlesTaken = c.handlesTaken := by
  unfold testRefill
  repeat' split
  all_goals simp

/-- What `queueNotice` leaves unchanged. -/
@[simp] theorem Chip.queueNotice_frame (c : Chip) (n : Notice) :
    (c.queueNotice n).inReset = c.inReset ∧ (c.queueNotice n).self = c.self ∧ (c.queueNotice n).now = c.now ∧
    (c.queueNotice n).freeIndex = c.freeIndex ∧ (c.queueNotice n).cmd = c.cmd ∧ (c.queueNotice n).fold = c.fold ∧
    (c.queueNotice n).intake = c.intake ∧ (c.queueNotice n).link = c.link ∧ (c.queueNotice n).slots = c.slots ∧
    (c.queueNotice n).extFree = c.extFree ∧ (c.queueNotice n).pendFree = c.pendFree ∧ (c.queueNotice n).cache = c.cache ∧
    (c.queueNotice n).retired = c.retired ∧ (c.queueNotice n).nextSeq = c.nextSeq ∧ (c.queueNotice n).pair = c.pair ∧
    (c.queueNotice n).verdicts = c.verdicts ∧ (c.queueNotice n).small = c.small ∧ (c.queueNotice n).large = c.large ∧
    (c.queueNotice n).notice.re = c.notice.re ∧ (c.queueNotice n).notice.rb = c.notice.rb ∧
    (c.queueNotice n).notice.latches = c.notice.latches ∧ (c.queueNotice n).notice.writing = c.notice.writing ∧
    (c.queueNotice n).notice.poll = c.notice.poll ∧ (c.queueNotice n).notice.pn = c.notice.pn ∧
    (c.queueNotice n).notice.cn = c.notice.cn ∧ (c.queueNotice n).payloadWrites = c.payloadWrites ∧
    (c.queueNotice n).handlesTaken = c.handlesTaken := by
  simp [queueNotice]

/-- What `noticeBlock` leaves unchanged. -/
@[simp] theorem Chip.noticeBlock_frame (c : Chip) (t : Tag) (x : Station) (b : BlockItem) :
    (c.noticeBlock t x b).inReset = c.inReset ∧ (c.noticeBlock t x b).self = c.self ∧ (c.noticeBlock t x b).now = c.now ∧
    (c.noticeBlock t x b).freeIndex = c.freeIndex ∧ (c.noticeBlock t x b).cmd = c.cmd ∧
    (c.noticeBlock t x b).fold = c.fold ∧ (c.noticeBlock t x b).intake = c.intake ∧ (c.noticeBlock t x b).link = c.link ∧
    (c.noticeBlock t x b).slots = c.slots ∧ (c.noticeBlock t x b).extFree = c.extFree ∧
    (c.noticeBlock t x b).pendFree = c.pendFree ∧ (c.noticeBlock t x b).cache = c.cache ∧
    (c.noticeBlock t x b).retired = c.retired ∧ (c.noticeBlock t x b).nextSeq = c.nextSeq ∧
    (c.noticeBlock t x b).pair = c.pair ∧ (c.noticeBlock t x b).verdicts = c.verdicts ∧
    (c.noticeBlock t x b).small = c.small ∧ (c.noticeBlock t x b).large = c.large ∧
    (c.noticeBlock t x b).notice.re = c.notice.re ∧ (c.noticeBlock t x b).notice.latches = c.notice.latches ∧
    (c.noticeBlock t x b).notice.writing = c.notice.writing ∧ (c.noticeBlock t x b).notice.poll = c.notice.poll ∧
    (c.noticeBlock t x b).notice.pn = c.notice.pn ∧ (c.noticeBlock t x b).notice.cn = c.notice.cn ∧
    (c.noticeBlock t x b).payloadWrites = c.payloadWrites ∧
    (c.noticeBlock t x b).handlesTaken = c.handlesTaken := by
  simp [noticeBlock]

/-- What `noticeEnd` leaves unchanged. -/
@[simp] theorem Chip.noticeEnd_frame (c : Chip) (n : Notice) :
    (c.noticeEnd n).inReset = c.inReset ∧ (c.noticeEnd n).self = c.self ∧ (c.noticeEnd n).now = c.now ∧
    (c.noticeEnd n).freeIndex = c.freeIndex ∧ (c.noticeEnd n).cmd = c.cmd ∧ (c.noticeEnd n).fold = c.fold ∧
    (c.noticeEnd n).intake = c.intake ∧ (c.noticeEnd n).link = c.link ∧ (c.noticeEnd n).slots = c.slots ∧
    (c.noticeEnd n).extFree = c.extFree ∧ (c.noticeEnd n).pendFree = c.pendFree ∧ (c.noticeEnd n).cache = c.cache ∧
    (c.noticeEnd n).retired = c.retired ∧ (c.noticeEnd n).nextSeq = c.nextSeq ∧ (c.noticeEnd n).pair = c.pair ∧
    (c.noticeEnd n).verdicts = c.verdicts ∧ (c.noticeEnd n).small = c.small ∧ (c.noticeEnd n).large = c.large ∧
    (c.noticeEnd n).notice.rb = c.notice.rb ∧ (c.noticeEnd n).notice.latches = c.notice.latches ∧
    (c.noticeEnd n).notice.writing = c.notice.writing ∧ (c.noticeEnd n).notice.poll = c.notice.poll ∧
    (c.noticeEnd n).notice.pn = c.notice.pn ∧ (c.noticeEnd n).notice.cn = c.notice.cn ∧
    (c.noticeEnd n).payloadWrites = c.payloadWrites ∧
    (c.noticeEnd n).handlesTaken = c.handlesTaken := by
  simp [noticeEnd]

/-- What `releaseEnd` leaves unchanged. -/
@[simp] theorem Chip.releaseEnd_frame (c : Chip) :
    (c.releaseEnd).inReset = c.inReset ∧ (c.releaseEnd).self = c.self ∧ (c.releaseEnd).now = c.now ∧
    (c.releaseEnd).freeIndex = c.freeIndex ∧ (c.releaseEnd).cmd = c.cmd ∧ (c.releaseEnd).fold = c.fold ∧
    (c.releaseEnd).intake = c.intake ∧ (c.releaseEnd).link = c.link ∧ (c.releaseEnd).slots = c.slots ∧
    (c.releaseEnd).extFree = c.extFree ∧ (c.releaseEnd).pendFree = c.pendFree ∧ (c.releaseEnd).cache = c.cache ∧
    (c.releaseEnd).retired = c.retired ∧ (c.releaseEnd).nextSeq = c.nextSeq ∧ (c.releaseEnd).pair = c.pair ∧
    (c.releaseEnd).verdicts = c.verdicts ∧ (c.releaseEnd).small = c.small ∧ (c.releaseEnd).large = c.large ∧
    (c.releaseEnd).notice.queue = c.notice.queue ∧ (c.releaseEnd).notice.rb = c.notice.rb ∧
    (c.releaseEnd).notice.latches = c.notice.latches ∧ (c.releaseEnd).notice.writing = c.notice.writing ∧
    (c.releaseEnd).notice.poll = c.notice.poll ∧ (c.releaseEnd).notice.pn = c.notice.pn ∧
    (c.releaseEnd).notice.cn = c.notice.cn ∧ (c.releaseEnd).payloadWrites = c.payloadWrites ∧
    (c.releaseEnd).handlesTaken = c.handlesTaken := by
  simp [releaseEnd]

/-- What `releaseBlock` leaves unchanged. -/
@[simp] theorem Chip.releaseBlock_frame (c : Chip) :
    (c.releaseBlock).inReset = c.inReset ∧ (c.releaseBlock).self = c.self ∧ (c.releaseBlock).now = c.now ∧
    (c.releaseBlock).freeIndex = c.freeIndex ∧ (c.releaseBlock).cmd = c.cmd ∧ (c.releaseBlock).fold = c.fold ∧
    (c.releaseBlock).intake = c.intake ∧ (c.releaseBlock).link = c.link ∧ (c.releaseBlock).slots = c.slots ∧
    (c.releaseBlock).extFree = c.extFree ∧ (c.releaseBlock).pendFree = c.pendFree ∧ (c.releaseBlock).cache = c.cache ∧
    (c.releaseBlock).retired = c.retired ∧ (c.releaseBlock).nextSeq = c.nextSeq ∧ (c.releaseBlock).pair = c.pair ∧
    (c.releaseBlock).verdicts = c.verdicts ∧ (c.releaseBlock).small = c.small ∧ (c.releaseBlock).large = c.large ∧
    (c.releaseBlock).notice.queue = c.notice.queue ∧ (c.releaseBlock).notice.re = c.notice.re ∧
    (c.releaseBlock).notice.latches = c.notice.latches ∧ (c.releaseBlock).notice.writing = c.notice.writing ∧
    (c.releaseBlock).notice.poll = c.notice.poll ∧ (c.releaseBlock).notice.pn = c.notice.pn ∧
    (c.releaseBlock).notice.cn = c.notice.cn ∧ (c.releaseBlock).payloadWrites = c.payloadWrites ∧
    (c.releaseBlock).handlesTaken = c.handlesTaken := by
  simp [releaseBlock]

/-- What `recycleBlock` leaves unchanged. -/
@[simp] theorem Chip.recycleBlock_frame (c : Chip) (b : BlockItem) :
    (c.recycleBlock b).inReset = c.inReset ∧ (c.recycleBlock b).self = c.self ∧ (c.recycleBlock b).now = c.now ∧
    (c.recycleBlock b).freeIndex = c.freeIndex ∧ (c.recycleBlock b).cmd = c.cmd ∧ (c.recycleBlock b).fold = c.fold ∧
    (c.recycleBlock b).intake = c.intake ∧ (c.recycleBlock b).link = c.link ∧ (c.recycleBlock b).slots = c.slots ∧
    (c.recycleBlock b).extFree = c.extFree ∧ (c.recycleBlock b).pendFree = c.pendFree ∧ (c.recycleBlock b).cache = c.cache ∧
    (c.recycleBlock b).retired = c.retired ∧ (c.recycleBlock b).nextSeq = c.nextSeq ∧ (c.recycleBlock b).pair = c.pair ∧
    (c.recycleBlock b).verdicts = c.verdicts ∧ (c.recycleBlock b).notice.queue = c.notice.queue ∧
    (c.recycleBlock b).notice.re = c.notice.re ∧ (c.recycleBlock b).notice.latches = c.notice.latches ∧
    (c.recycleBlock b).notice.writing = c.notice.writing ∧ (c.recycleBlock b).notice.poll = c.notice.poll ∧
    (c.recycleBlock b).notice.pn = c.notice.pn ∧ (c.recycleBlock b).notice.cn = c.notice.cn ∧
    (c.recycleBlock b).payloadWrites = c.payloadWrites ∧
    (c.recycleBlock b).handlesTaken = c.handlesTaken := by
  simp [recycleBlock]

/-- What `drainLatches` leaves unchanged. -/
@[simp] theorem Chip.drainLatches_frame (ls : List Latch) (c : Chip) :
    (drainLatches ls c).inReset = c.inReset ∧ (drainLatches ls c).self = c.self ∧ (drainLatches ls c).now = c.now ∧
    (drainLatches ls c).freeIndex = c.freeIndex ∧ (drainLatches ls c).cmd = c.cmd ∧ (drainLatches ls c).fold = c.fold ∧
    (drainLatches ls c).intake = c.intake ∧ (drainLatches ls c).link = c.link ∧ (drainLatches ls c).slots = c.slots ∧
    (drainLatches ls c).extFree = c.extFree ∧ (drainLatches ls c).pendFree = c.pendFree ∧
    (drainLatches ls c).cache = c.cache ∧ (drainLatches ls c).retired = c.retired ∧
    (drainLatches ls c).nextSeq = c.nextSeq ∧ (drainLatches ls c).pair = c.pair ∧
    (drainLatches ls c).verdicts = c.verdicts ∧ (drainLatches ls c).small = c.small ∧ (drainLatches ls c).large = c.large ∧
    (drainLatches ls c).notice.re = c.notice.re ∧ (drainLatches ls c).notice.rb = c.notice.rb ∧
    (drainLatches ls c).notice.writing = c.notice.writing ∧ (drainLatches ls c).notice.poll = c.notice.poll ∧
    (drainLatches ls c).notice.pn = c.notice.pn ∧ (drainLatches ls c).notice.cn = c.notice.cn ∧
    (drainLatches ls c).payloadWrites = c.payloadWrites ∧
    (drainLatches ls c).handlesTaken = c.handlesTaken := by
  induction ls generalizing c with
  | nil => simp [drainLatches]
  | cons l ls ih =>
    unfold drainLatches
    split
    · have h := ih (c.queueNotice (.station l)); simpa using h
    · simp

/-- What `grantIntake` leaves unchanged. -/
@[simp] theorem Chip.grantIntake_frame (c : Chip) :
    (c.grantIntake).inReset = c.inReset ∧ (c.grantIntake).self = c.self ∧ (c.grantIntake).now = c.now ∧
    (c.grantIntake).freeIndex = c.freeIndex ∧ (c.grantIntake).cmd = c.cmd ∧ (c.grantIntake).fold = c.fold ∧
    (c.grantIntake).link = c.link ∧ (c.grantIntake).slots = c.slots ∧ (c.grantIntake).extFree = c.extFree ∧
    (c.grantIntake).pendFree = c.pendFree ∧ (c.grantIntake).cache = c.cache ∧ (c.grantIntake).retired = c.retired ∧
    (c.grantIntake).nextSeq = c.nextSeq ∧ (c.grantIntake).pair = c.pair ∧ (c.grantIntake).verdicts = c.verdicts ∧
    (c.grantIntake).small = c.small ∧ (c.grantIntake).large = c.large ∧ (c.grantIntake).notice = c.notice ∧
    (c.grantIntake).payloadWrites = c.payloadWrites ∧
    (c.grantIntake).handlesTaken = c.handlesTaken := by
  unfold grantIntake
  repeat' split
  all_goals simp

/-- What `serve` leaves unchanged. -/
@[simp] theorem Chip.serve_frame (c : Chip) :
    (c.serve).inReset = c.inReset ∧ (c.serve).self = c.self ∧ (c.serve).now = c.now ∧ (c.serve).freeIndex = c.freeIndex ∧
    (c.serve).cmd = c.cmd ∧ (c.serve).fold = c.fold ∧ (c.serve).link = c.link ∧ (c.serve).slots = c.slots ∧
    (c.serve).extFree = c.extFree ∧ (c.serve).pendFree = c.pendFree ∧ (c.serve).cache = c.cache ∧
    (c.serve).retired = c.retired ∧ (c.serve).nextSeq = c.nextSeq ∧ (c.serve).pair = c.pair ∧
    (c.serve).verdicts = c.verdicts ∧ (c.serve).small = c.small ∧ (c.serve).large = c.large ∧
    (c.serve).notice.re = c.notice.re ∧ (c.serve).notice.rb = c.notice.rb ∧ (c.serve).notice.writing = c.notice.writing ∧
    (c.serve).notice.poll = c.notice.poll ∧ (c.serve).notice.pn = c.notice.pn ∧ (c.serve).notice.cn = c.notice.cn ∧
    (c.serve).payloadWrites = c.payloadWrites ∧
    (c.serve).handlesTaken = c.handlesTaken := by
  simp [serve]

/-- What `offerStation` leaves unchanged. -/
@[simp] theorem Chip.offerStation_frame (c : Chip) (e : StationEvent) (x : Station) :
    (c.offerStation e x).inReset = c.inReset ∧ (c.offerStation e x).self = c.self ∧ (c.offerStation e x).now = c.now ∧
    (c.offerStation e x).freeIndex = c.freeIndex ∧ (c.offerStation e x).cmd = c.cmd ∧ (c.offerStation e x).fold = c.fold ∧
    (c.offerStation e x).intake = c.intake ∧ (c.offerStation e x).link = c.link ∧ (c.offerStation e x).slots = c.slots ∧
    (c.offerStation e x).extFree = c.extFree ∧ (c.offerStation e x).pendFree = c.pendFree ∧
    (c.offerStation e x).cache = c.cache ∧ (c.offerStation e x).retired = c.retired ∧
    (c.offerStation e x).nextSeq = c.nextSeq ∧ (c.offerStation e x).pair = c.pair ∧
    (c.offerStation e x).verdicts = c.verdicts ∧ (c.offerStation e x).small = c.small ∧
    (c.offerStation e x).large = c.large ∧ (c.offerStation e x).notice.re = c.notice.re ∧
    (c.offerStation e x).notice.rb = c.notice.rb ∧ (c.offerStation e x).notice.writing = c.notice.writing ∧
    (c.offerStation e x).notice.poll = c.notice.poll ∧ (c.offerStation e x).notice.pn = c.notice.pn ∧
    (c.offerStation e x).notice.cn = c.notice.cn ∧ (c.offerStation e x).payloadWrites = c.payloadWrites ∧
    (c.offerStation e x).handlesTaken = c.handlesTaken := by
  simp [offerStation]

/-- What `setQueue` leaves unchanged. -/
@[simp] theorem Chip.setQueue_frame (c : Chip) (q : Fin 4) (l : List Frame) :
    (c.setQueue q l).inReset = c.inReset ∧ (c.setQueue q l).self = c.self ∧ (c.setQueue q l).now = c.now ∧
    (c.setQueue q l).freeIndex = c.freeIndex ∧ (c.setQueue q l).cmd = c.cmd ∧ (c.setQueue q l).fold = c.fold ∧
    (c.setQueue q l).intake = c.intake ∧ (c.setQueue q l).link.state = c.link.state ∧
    (c.setQueue q l).link.settle = c.link.settle ∧ (c.setQueue q l).link.hold = c.link.hold ∧
    (c.setQueue q l).link.nextPoint = c.link.nextPoint ∧ (c.setQueue q l).link.lastPoint = c.link.lastPoint ∧
    (c.setQueue q l).link.beaconCount = c.link.beaconCount ∧ (c.setQueue q l).link.mediumIdle = c.link.mediumIdle ∧
    (c.setQueue q l).link.receiver = c.link.receiver ∧ (c.setQueue q l).link.presence = c.link.presence ∧
    (c.setQueue q l).link.strike = c.link.strike ∧ (c.setQueue q l).link.wire = c.link.wire ∧
    (c.setQueue q l).slots = c.slots ∧ (c.setQueue q l).extFree = c.extFree ∧ (c.setQueue q l).pendFree = c.pendFree ∧
    (c.setQueue q l).cache = c.cache ∧ (c.setQueue q l).retired = c.retired ∧ (c.setQueue q l).nextSeq = c.nextSeq ∧
    (c.setQueue q l).pair = c.pair ∧ (c.setQueue q l).verdicts = c.verdicts ∧ (c.setQueue q l).small = c.small ∧
    (c.setQueue q l).large = c.large ∧ (c.setQueue q l).notice = c.notice ∧
    (c.setQueue q l).payloadWrites = c.payloadWrites ∧
    (c.setQueue q l).handlesTaken = c.handlesTaken := by
  simp [setQueue]

/-- What `push` leaves unchanged. -/
@[simp] theorem Chip.push_frame (c : Chip) (q : Fin 4) (f : Frame) :
    (c.push q f).inReset = c.inReset ∧ (c.push q f).self = c.self ∧ (c.push q f).now = c.now ∧
    (c.push q f).freeIndex = c.freeIndex ∧ (c.push q f).cmd = c.cmd ∧ (c.push q f).fold = c.fold ∧
    (c.push q f).intake = c.intake ∧ (c.push q f).link.state = c.link.state ∧ (c.push q f).link.settle = c.link.settle ∧
    (c.push q f).link.hold = c.link.hold ∧ (c.push q f).link.nextPoint = c.link.nextPoint ∧
    (c.push q f).link.lastPoint = c.link.lastPoint ∧ (c.push q f).link.beaconCount = c.link.beaconCount ∧
    (c.push q f).link.mediumIdle = c.link.mediumIdle ∧ (c.push q f).link.receiver = c.link.receiver ∧
    (c.push q f).link.presence = c.link.presence ∧ (c.push q f).link.strike = c.link.strike ∧
    (c.push q f).link.wire = c.link.wire ∧ (c.push q f).slots = c.slots ∧ (c.push q f).extFree = c.extFree ∧
    (c.push q f).pendFree = c.pendFree ∧ (c.push q f).cache = c.cache ∧ (c.push q f).retired = c.retired ∧
    (c.push q f).nextSeq = c.nextSeq ∧ (c.push q f).pair = c.pair ∧ (c.push q f).verdicts = c.verdicts ∧
    (c.push q f).small = c.small ∧ (c.push q f).large = c.large ∧ (c.push q f).notice = c.notice ∧
    (c.push q f).payloadWrites = c.payloadWrites ∧
    (c.push q f).handlesTaken = c.handlesTaken := by
  simp [push]

/-- What `offer` leaves unchanged. -/
@[simp] theorem Chip.offer_frame (c : Chip) (q : Fin 4) (f : Frame) :
    (c.offer q f).inReset = c.inReset ∧ (c.offer q f).self = c.self ∧ (c.offer q f).now = c.now ∧
    (c.offer q f).freeIndex = c.freeIndex ∧ (c.offer q f).cmd = c.cmd ∧ (c.offer q f).fold = c.fold ∧
    (c.offer q f).intake = c.intake ∧ (c.offer q f).link.state = c.link.state ∧ (c.offer q f).link.settle = c.link.settle ∧
    (c.offer q f).link.hold = c.link.hold ∧ (c.offer q f).link.nextPoint = c.link.nextPoint ∧
    (c.offer q f).link.lastPoint = c.link.lastPoint ∧ (c.offer q f).link.beaconCount = c.link.beaconCount ∧
    (c.offer q f).link.mediumIdle = c.link.mediumIdle ∧ (c.offer q f).link.receiver = c.link.receiver ∧
    (c.offer q f).link.presence = c.link.presence ∧ (c.offer q f).link.strike = c.link.strike ∧
    (c.offer q f).link.wire = c.link.wire ∧ (c.offer q f).slots = c.slots ∧ (c.offer q f).extFree = c.extFree ∧
    (c.offer q f).pendFree = c.pendFree ∧ (c.offer q f).cache = c.cache ∧ (c.offer q f).retired = c.retired ∧
    (c.offer q f).nextSeq = c.nextSeq ∧ (c.offer q f).pair = c.pair ∧ (c.offer q f).verdicts = c.verdicts ∧
    (c.offer q f).small = c.small ∧ (c.offer q f).large = c.large ∧ (c.offer q f).notice = c.notice ∧
    (c.offer q f).payloadWrites = c.payloadWrites ∧
    (c.offer q f).handlesTaken = c.handlesTaken := by
  unfold offer
  repeat' split
  all_goals simp

/-- What `setWire` leaves unchanged. -/
@[simp] theorem Chip.setWire_frame (c : Chip) (w : Option Wire) :
    (c.setWire w).inReset = c.inReset ∧ (c.setWire w).self = c.self ∧ (c.setWire w).now = c.now ∧
    (c.setWire w).freeIndex = c.freeIndex ∧ (c.setWire w).cmd = c.cmd ∧ (c.setWire w).fold = c.fold ∧
    (c.setWire w).intake = c.intake ∧ (c.setWire w).link.state = c.link.state ∧ (c.setWire w).link.settle = c.link.settle ∧
    (c.setWire w).link.hold = c.link.hold ∧ (c.setWire w).link.nextPoint = c.link.nextPoint ∧
    (c.setWire w).link.lastPoint = c.link.lastPoint ∧ (c.setWire w).link.beaconCount = c.link.beaconCount ∧
    (c.setWire w).link.mediumIdle = c.link.mediumIdle ∧ (c.setWire w).link.receiver = c.link.receiver ∧
    (c.setWire w).link.presence = c.link.presence ∧ (c.setWire w).link.strike = c.link.strike ∧
    (c.setWire w).link.queues = c.link.queues ∧ (c.setWire w).slots = c.slots ∧ (c.setWire w).extFree = c.extFree ∧
    (c.setWire w).pendFree = c.pendFree ∧ (c.setWire w).cache = c.cache ∧ (c.setWire w).retired = c.retired ∧
    (c.setWire w).nextSeq = c.nextSeq ∧ (c.setWire w).pair = c.pair ∧ (c.setWire w).verdicts = c.verdicts ∧
    (c.setWire w).small = c.small ∧ (c.setWire w).large = c.large ∧ (c.setWire w).notice = c.notice ∧
    (c.setWire w).payloadWrites = c.payloadWrites ∧
    (c.setWire w).handlesTaken = c.handlesTaken := by
  simp [setWire]

/-- What `giveOwed` leaves unchanged. -/
@[simp] theorem Chip.giveOwed_frame (c : Chip) :
    (c.giveOwed).inReset = c.inReset ∧ (c.giveOwed).self = c.self ∧ (c.giveOwed).now = c.now ∧
    (c.giveOwed).freeIndex = c.freeIndex ∧ (c.giveOwed).cmd = c.cmd ∧ (c.giveOwed).fold = c.fold ∧
    (c.giveOwed).intake = c.intake ∧ (c.giveOwed).link.state = c.link.state ∧ (c.giveOwed).link.settle = c.link.settle ∧
    (c.giveOwed).link.hold = c.link.hold ∧ (c.giveOwed).link.nextPoint = c.link.nextPoint ∧
    (c.giveOwed).link.lastPoint = c.link.lastPoint ∧ (c.giveOwed).link.beaconCount = c.link.beaconCount ∧
    (c.giveOwed).link.mediumIdle = c.link.mediumIdle ∧ (c.giveOwed).link.receiver = c.link.receiver ∧
    (c.giveOwed).link.presence = c.link.presence ∧ (c.giveOwed).link.strike = c.link.strike ∧
    (c.giveOwed).link.wire = c.link.wire ∧ (c.giveOwed).extFree = c.extFree ∧ (c.giveOwed).pendFree = c.pendFree ∧
    (c.giveOwed).cache = c.cache ∧ (c.giveOwed).retired = c.retired ∧ (c.giveOwed).nextSeq = c.nextSeq ∧
    (c.giveOwed).pair = c.pair ∧ (c.giveOwed).verdicts = c.verdicts ∧ (c.giveOwed).small = c.small ∧
    (c.giveOwed).large = c.large ∧ (c.giveOwed).notice = c.notice ∧ (c.giveOwed).payloadWrites = c.payloadWrites ∧
    (c.giveOwed).handlesTaken = c.handlesTaken := by
  unfold giveOwed
  repeat' split
  all_goals simp

/-- What `placeFreed` leaves unchanged. -/
@[simp] theorem Chip.placeFreed_frame (c : Chip) (q : Fin 4) :
    (c.placeFreed q).inReset = c.inReset ∧ (c.placeFreed q).self = c.self ∧ (c.placeFreed q).now = c.now ∧
    (c.placeFreed q).freeIndex = c.freeIndex ∧ (c.placeFreed q).cmd = c.cmd ∧ (c.placeFreed q).fold = c.fold ∧
    (c.placeFreed q).intake = c.intake ∧ (c.placeFreed q).link.state = c.link.state ∧
    (c.placeFreed q).link.settle = c.link.settle ∧ (c.placeFreed q).link.hold = c.link.hold ∧
    (c.placeFreed q).link.nextPoint = c.link.nextPoint ∧ (c.placeFreed q).link.lastPoint = c.link.lastPoint ∧
    (c.placeFreed q).link.beaconCount = c.link.beaconCount ∧ (c.placeFreed q).link.mediumIdle = c.link.mediumIdle ∧
    (c.placeFreed q).link.receiver = c.link.receiver ∧ (c.placeFreed q).link.presence = c.link.presence ∧
    (c.placeFreed q).link.strike = c.link.strike ∧ (c.placeFreed q).link.wire = c.link.wire ∧
    (c.placeFreed q).extFree = c.extFree ∧ (c.placeFreed q).pendFree = c.pendFree ∧ (c.placeFreed q).cache = c.cache ∧
    (c.placeFreed q).retired = c.retired ∧ (c.placeFreed q).nextSeq = c.nextSeq ∧ (c.placeFreed q).pair = c.pair ∧
    (c.placeFreed q).verdicts = c.verdicts ∧ (c.placeFreed q).small = c.small ∧ (c.placeFreed q).large = c.large ∧
    (c.placeFreed q).notice = c.notice ∧ (c.placeFreed q).payloadWrites = c.payloadWrites ∧
    (c.placeFreed q).handlesTaken = c.handlesTaken := by
  unfold placeFreed
  repeat' split
  all_goals simp

/-- What `popHead` leaves unchanged. -/
@[simp] theorem Chip.popHead_frame (c : Chip) (q : Fin 4) :
    (c.popHead q).inReset = c.inReset ∧ (c.popHead q).self = c.self ∧ (c.popHead q).now = c.now ∧
    (c.popHead q).freeIndex = c.freeIndex ∧ (c.popHead q).cmd = c.cmd ∧ (c.popHead q).fold = c.fold ∧
    (c.popHead q).intake = c.intake ∧ (c.popHead q).link.state = c.link.state ∧ (c.popHead q).link.settle = c.link.settle ∧
    (c.popHead q).link.hold = c.link.hold ∧ (c.popHead q).link.nextPoint = c.link.nextPoint ∧
    (c.popHead q).link.lastPoint = c.link.lastPoint ∧ (c.popHead q).link.beaconCount = c.link.beaconCount ∧
    (c.popHead q).link.mediumIdle = c.link.mediumIdle ∧ (c.popHead q).link.receiver = c.link.receiver ∧
    (c.popHead q).link.presence = c.link.presence ∧ (c.popHead q).link.strike = c.link.strike ∧
    (c.popHead q).link.wire = c.link.wire ∧ (c.popHead q).extFree = c.extFree ∧ (c.popHead q).pendFree = c.pendFree ∧
    (c.popHead q).cache = c.cache ∧ (c.popHead q).retired = c.retired ∧ (c.popHead q).nextSeq = c.nextSeq ∧
    (c.popHead q).pair = c.pair ∧ (c.popHead q).verdicts = c.verdicts ∧ (c.popHead q).small = c.small ∧
    (c.popHead q).large = c.large ∧ (c.popHead q).notice = c.notice ∧ (c.popHead q).payloadWrites = c.payloadWrites ∧
    (c.popHead q).handlesTaken = c.handlesTaken := by
  simp [popHead]

/-- What `withdrawQueued` leaves unchanged. -/
@[simp] theorem Chip.withdrawQueued_frame (c : Chip) (q : Fin 4) (p : Frame → Bool) :
    (c.withdrawQueued q p).inReset = c.inReset ∧ (c.withdrawQueued q p).self = c.self ∧ (c.withdrawQueued q p).now = c.now ∧
    (c.withdrawQueued q p).freeIndex = c.freeIndex ∧ (c.withdrawQueued q p).cmd = c.cmd ∧
    (c.withdrawQueued q p).fold = c.fold ∧ (c.withdrawQueued q p).intake = c.intake ∧
    (c.withdrawQueued q p).link.state = c.link.state ∧ (c.withdrawQueued q p).link.settle = c.link.settle ∧
    (c.withdrawQueued q p).link.hold = c.link.hold ∧ (c.withdrawQueued q p).link.nextPoint = c.link.nextPoint ∧
    (c.withdrawQueued q p).link.lastPoint = c.link.lastPoint ∧
    (c.withdrawQueued q p).link.beaconCount = c.link.beaconCount ∧
    (c.withdrawQueued q p).link.mediumIdle = c.link.mediumIdle ∧ (c.withdrawQueued q p).link.receiver = c.link.receiver ∧
    (c.withdrawQueued q p).link.presence = c.link.presence ∧ (c.withdrawQueued q p).link.strike = c.link.strike ∧
    (c.withdrawQueued q p).link.wire = c.link.wire ∧ (c.withdrawQueued q p).extFree = c.extFree ∧
    (c.withdrawQueued q p).pendFree = c.pendFree ∧ (c.withdrawQueued q p).cache = c.cache ∧
    (c.withdrawQueued q p).retired = c.retired ∧ (c.withdrawQueued q p).nextSeq = c.nextSeq ∧
    (c.withdrawQueued q p).pair = c.pair ∧ (c.withdrawQueued q p).verdicts = c.verdicts ∧
    (c.withdrawQueued q p).small = c.small ∧ (c.withdrawQueued q p).large = c.large ∧
    (c.withdrawQueued q p).notice = c.notice ∧ (c.withdrawQueued q p).payloadWrites = c.payloadWrites ∧
    (c.withdrawQueued q p).handlesTaken = c.handlesTaken := by
  unfold withdrawQueued
  repeat' split
  all_goals simp

/-- What `withdrawReasserts` leaves unchanged. -/
@[simp] theorem Chip.withdrawReasserts_frame (c : Chip) (t : Tag) :
    (c.withdrawReasserts t).inReset = c.inReset ∧ (c.withdrawReasserts t).self = c.self ∧ (c.withdrawReasserts t).now = c.now ∧
    (c.withdrawReasserts t).freeIndex = c.freeIndex ∧ (c.withdrawReasserts t).cmd = c.cmd ∧ (c.withdrawReasserts t).fold = c.fold ∧
    (c.withdrawReasserts t).intake = c.intake ∧ (c.withdrawReasserts t).link.state = c.link.state ∧
    (c.withdrawReasserts t).link.settle = c.link.settle ∧ (c.withdrawReasserts t).link.hold = c.link.hold ∧
    (c.withdrawReasserts t).link.nextPoint = c.link.nextPoint ∧ (c.withdrawReasserts t).link.lastPoint = c.link.lastPoint ∧
    (c.withdrawReasserts t).link.beaconCount = c.link.beaconCount ∧ (c.withdrawReasserts t).link.mediumIdle = c.link.mediumIdle ∧
    (c.withdrawReasserts t).link.receiver = c.link.receiver ∧ (c.withdrawReasserts t).link.presence = c.link.presence ∧
    (c.withdrawReasserts t).link.strike = c.link.strike ∧ (c.withdrawReasserts t).link.wire = c.link.wire ∧
    (c.withdrawReasserts t).slots = c.slots ∧ (c.withdrawReasserts t).extFree = c.extFree ∧ (c.withdrawReasserts t).pendFree = c.pendFree ∧
    (c.withdrawReasserts t).cache = c.cache ∧ (c.withdrawReasserts t).retired = c.retired ∧ (c.withdrawReasserts t).nextSeq = c.nextSeq ∧
    (c.withdrawReasserts t).pair = c.pair ∧ (c.withdrawReasserts t).verdicts = c.verdicts ∧ (c.withdrawReasserts t).small = c.small ∧
    (c.withdrawReasserts t).large = c.large ∧ (c.withdrawReasserts t).notice = c.notice ∧
    (c.withdrawReasserts t).payloadWrites = c.payloadWrites ∧
    (c.withdrawReasserts t).handlesTaken = c.handlesTaken := by
  simp [withdrawReasserts]

/-- What `withdraw` leaves unchanged. -/
@[simp] theorem Chip.withdraw_frame (c : Chip) (q : Fin 4) (p : Frame → Bool) :
    (c.withdraw q p).inReset = c.inReset ∧ (c.withdraw q p).self = c.self ∧ (c.withdraw q p).now = c.now ∧
    (c.withdraw q p).freeIndex = c.freeIndex ∧ (c.withdraw q p).cmd = c.cmd ∧ (c.withdraw q p).fold = c.fold ∧
    (c.withdraw q p).intake = c.intake ∧ (c.withdraw q p).link.state = c.link.state ∧
    (c.withdraw q p).link.settle = c.link.settle ∧ (c.withdraw q p).link.hold = c.link.hold ∧
    (c.withdraw q p).link.nextPoint = c.link.nextPoint ∧ (c.withdraw q p).link.lastPoint = c.link.lastPoint ∧
    (c.withdraw q p).link.beaconCount = c.link.beaconCount ∧ (c.withdraw q p).link.mediumIdle = c.link.mediumIdle ∧
    (c.withdraw q p).link.receiver = c.link.receiver ∧ (c.withdraw q p).link.presence = c.link.presence ∧
    (c.withdraw q p).link.strike = c.link.strike ∧ (c.withdraw q p).extFree = c.extFree ∧
    (c.withdraw q p).pendFree = c.pendFree ∧ (c.withdraw q p).cache = c.cache ∧ (c.withdraw q p).retired = c.retired ∧
    (c.withdraw q p).nextSeq = c.nextSeq ∧ (c.withdraw q p).pair = c.pair ∧ (c.withdraw q p).verdicts = c.verdicts ∧
    (c.withdraw q p).small = c.small ∧ (c.withdraw q p).large = c.large ∧ (c.withdraw q p).notice = c.notice ∧
    (c.withdraw q p).payloadWrites = c.payloadWrites ∧
    (c.withdraw q p).handlesTaken = c.handlesTaken := by
  unfold withdraw
  repeat' split
  all_goals simp

/-- What `beginFrame` leaves unchanged. -/
@[simp] theorem Chip.beginFrame_frame (c : Chip) :
    (c.beginFrame).inReset = c.inReset ∧ (c.beginFrame).self = c.self ∧ (c.beginFrame).now = c.now ∧
    (c.beginFrame).freeIndex = c.freeIndex ∧ (c.beginFrame).cmd = c.cmd ∧ (c.beginFrame).fold = c.fold ∧
    (c.beginFrame).intake = c.intake ∧ (c.beginFrame).link.state = c.link.state ∧
    (c.beginFrame).link.settle = c.link.settle ∧ (c.beginFrame).link.hold = c.link.hold ∧
    (c.beginFrame).link.nextPoint = c.link.nextPoint ∧ (c.beginFrame).link.lastPoint = c.link.lastPoint ∧
    (c.beginFrame).link.beaconCount = c.link.beaconCount ∧ (c.beginFrame).link.mediumIdle = c.link.mediumIdle ∧
    (c.beginFrame).link.receiver = c.link.receiver ∧ (c.beginFrame).link.presence = c.link.presence ∧
    (c.beginFrame).link.strike = c.link.strike ∧ (c.beginFrame).link.queues = c.link.queues ∧
    (c.beginFrame).slots = c.slots ∧ (c.beginFrame).extFree = c.extFree ∧ (c.beginFrame).pendFree = c.pendFree ∧
    (c.beginFrame).cache = c.cache ∧ (c.beginFrame).retired = c.retired ∧ (c.beginFrame).nextSeq = c.nextSeq ∧
    (c.beginFrame).pair = c.pair ∧ (c.beginFrame).verdicts = c.verdicts ∧ (c.beginFrame).small = c.small ∧
    (c.beginFrame).large = c.large ∧ (c.beginFrame).notice = c.notice ∧ (c.beginFrame).payloadWrites = c.payloadWrites ∧
    (c.beginFrame).handlesTaken = c.handlesTaken := by
  unfold beginFrame
  repeat' split
  all_goals simp

/-- What `forget` leaves unchanged. -/
@[simp] theorem Chip.forget_frame (c : Chip) (t : Tag) :
    (c.forget t).inReset = c.inReset ∧ (c.forget t).self = c.self ∧ (c.forget t).now = c.now ∧
    (c.forget t).freeIndex = c.freeIndex ∧ (c.forget t).cmd = c.cmd ∧ (c.forget t).fold = c.fold ∧
    (c.forget t).intake = c.intake ∧ (c.forget t).link = c.link ∧ (c.forget t).slots = c.slots ∧
    (c.forget t).extFree = c.extFree ∧ (c.forget t).pendFree = c.pendFree ∧ (c.forget t).retired = c.retired ∧
    (c.forget t).nextSeq = c.nextSeq ∧ (c.forget t).pair = c.pair ∧ (c.forget t).verdicts = c.verdicts ∧
    (c.forget t).small = c.small ∧ (c.forget t).large = c.large ∧ (c.forget t).notice = c.notice ∧
    (c.forget t).payloadWrites = c.payloadWrites ∧
    (c.forget t).handlesTaken = c.handlesTaken := by
  simp [forget]

/-- What `learn` leaves unchanged. -/
@[simp] theorem Chip.learn_frame (c : Chip) (t : Tag) (x : Station) :
    (c.learn t x).inReset = c.inReset ∧ (c.learn t x).self = c.self ∧ (c.learn t x).now = c.now ∧
    (c.learn t x).freeIndex = c.freeIndex ∧ (c.learn t x).cmd = c.cmd ∧ (c.learn t x).fold = c.fold ∧
    (c.learn t x).intake = c.intake ∧ (c.learn t x).link = c.link ∧ (c.learn t x).slots = c.slots ∧
    (c.learn t x).extFree = c.extFree ∧ (c.learn t x).pendFree = c.pendFree ∧ (c.learn t x).retired = c.retired ∧
    (c.learn t x).nextSeq = c.nextSeq ∧ (c.learn t x).pair = c.pair ∧ (c.learn t x).verdicts = c.verdicts ∧
    (c.learn t x).small = c.small ∧ (c.learn t x).large = c.large ∧ (c.learn t x).notice = c.notice ∧
    (c.learn t x).payloadWrites = c.payloadWrites ∧
    (c.learn t x).handlesTaken = c.handlesTaken := by
  unfold learn
  repeat' split
  all_goals simp

/-- What `retire` leaves unchanged. -/
@[simp] theorem Chip.retire_frame (c : Chip) (t : Tag) :
    (c.retire t).inReset = c.inReset ∧ (c.retire t).self = c.self ∧ (c.retire t).now = c.now ∧
    (c.retire t).freeIndex = c.freeIndex ∧ (c.retire t).cmd = c.cmd ∧ (c.retire t).fold = c.fold ∧
    (c.retire t).intake = c.intake ∧ (c.retire t).link = c.link ∧ (c.retire t).slots = c.slots ∧
    (c.retire t).extFree = c.extFree ∧ (c.retire t).pendFree = c.pendFree ∧ (c.retire t).nextSeq = c.nextSeq ∧
    (c.retire t).pair = c.pair ∧ (c.retire t).verdicts = c.verdicts ∧ (c.retire t).small = c.small ∧
    (c.retire t).large = c.large ∧ (c.retire t).notice = c.notice ∧ (c.retire t).payloadWrites = c.payloadWrites ∧
    (c.retire t).handlesTaken = c.handlesTaken := by
  unfold retire
  repeat' split
  all_goals simp

/-- What `offerRelease` leaves unchanged. -/
@[simp] theorem Chip.offerRelease_frame (c : Chip) (i : Nat) (t : Tag) (o : ObjOutcome) :
    (c.offerRelease i t o).inReset = c.inReset ∧ (c.offerRelease i t o).self = c.self ∧ (c.offerRelease i t o).now = c.now ∧
    (c.offerRelease i t o).freeIndex = c.freeIndex ∧ (c.offerRelease i t o).cmd = c.cmd ∧
    (c.offerRelease i t o).fold = c.fold ∧ (c.offerRelease i t o).intake = c.intake ∧
    (c.offerRelease i t o).link.state = c.link.state ∧ (c.offerRelease i t o).link.settle = c.link.settle ∧
    (c.offerRelease i t o).link.hold = c.link.hold ∧ (c.offerRelease i t o).link.nextPoint = c.link.nextPoint ∧
    (c.offerRelease i t o).link.lastPoint = c.link.lastPoint ∧
    (c.offerRelease i t o).link.beaconCount = c.link.beaconCount ∧
    (c.offerRelease i t o).link.mediumIdle = c.link.mediumIdle ∧ (c.offerRelease i t o).link.receiver = c.link.receiver ∧
    (c.offerRelease i t o).link.presence = c.link.presence ∧ (c.offerRelease i t o).link.strike = c.link.strike ∧
    (c.offerRelease i t o).link.wire = c.link.wire ∧ (c.offerRelease i t o).extFree = c.extFree ∧
    (c.offerRelease i t o).pendFree = c.pendFree ∧ (c.offerRelease i t o).cache = c.cache ∧
    (c.offerRelease i t o).retired = c.retired ∧ (c.offerRelease i t o).nextSeq = c.nextSeq ∧
    (c.offerRelease i t o).pair = c.pair ∧ (c.offerRelease i t o).verdicts = c.verdicts ∧
    (c.offerRelease i t o).small = c.small ∧ (c.offerRelease i t o).large = c.large ∧
    (c.offerRelease i t o).notice = c.notice ∧ (c.offerRelease i t o).payloadWrites = c.payloadWrites ∧
    (c.offerRelease i t o).handlesTaken = c.handlesTaken := by
  unfold offerRelease
  repeat' split
  all_goals simp

/-- What `noticeBlocks` leaves unchanged. -/
@[simp] theorem Chip.noticeBlocks_frame (t : Tag) (l : List BlockItem) (c : Chip) :
    (l.foldl (fun c b => c.noticeBlock t c.self b) c).inReset = c.inReset ∧
    (l.foldl (fun c b => c.noticeBlock t c.self b) c).self = c.self ∧
    (l.foldl (fun c b => c.noticeBlock t c.self b) c).now = c.now ∧
    (l.foldl (fun c b => c.noticeBlock t c.self b) c).freeIndex = c.freeIndex ∧
    (l.foldl (fun c b => c.noticeBlock t c.self b) c).cmd = c.cmd ∧
    (l.foldl (fun c b => c.noticeBlock t c.self b) c).fold = c.fold ∧
    (l.foldl (fun c b => c.noticeBlock t c.self b) c).intake = c.intake ∧
    (l.foldl (fun c b => c.noticeBlock t c.self b) c).link = c.link ∧
    (l.foldl (fun c b => c.noticeBlock t c.self b) c).slots = c.slots ∧
    (l.foldl (fun c b => c.noticeBlock t c.self b) c).extFree = c.extFree ∧
    (l.foldl (fun c b => c.noticeBlock t c.self b) c).pendFree = c.pendFree ∧
    (l.foldl (fun c b => c.noticeBlock t c.self b) c).cache = c.cache ∧
    (l.foldl (fun c b => c.noticeBlock t c.self b) c).retired = c.retired ∧
    (l.foldl (fun c b => c.noticeBlock t c.self b) c).nextSeq = c.nextSeq ∧
    (l.foldl (fun c b => c.noticeBlock t c.self b) c).pair = c.pair ∧
    (l.foldl (fun c b => c.noticeBlock t c.self b) c).verdicts = c.verdicts ∧
    (l.foldl (fun c b => c.noticeBlock t c.self b) c).small = c.small ∧
    (l.foldl (fun c b => c.noticeBlock t c.self b) c).large = c.large ∧
    (l.foldl (fun c b => c.noticeBlock t c.self b) c).notice.re = c.notice.re ∧
    (l.foldl (fun c b => c.noticeBlock t c.self b) c).notice.latches = c.notice.latches ∧
    (l.foldl (fun c b => c.noticeBlock t c.self b) c).notice.writing = c.notice.writing ∧
    (l.foldl (fun c b => c.noticeBlock t c.self b) c).notice.poll = c.notice.poll ∧
    (l.foldl (fun c b => c.noticeBlock t c.self b) c).notice.pn = c.notice.pn ∧
    (l.foldl (fun c b => c.noticeBlock t c.self b) c).notice.cn = c.notice.cn ∧
    (l.foldl (fun c b => c.noticeBlock t c.self b) c).payloadWrites = c.payloadWrites ∧
    (l.foldl (fun c b => c.noticeBlock t c.self b) c).handlesTaken = c.handlesTaken := by
  induction l generalizing c with
  | nil => simp
  | cons b l ih => have h := ih (c.noticeBlock t c.self b); simpa using h

/-- What `recycleBlocks` leaves unchanged. -/
@[simp] theorem Chip.recycleBlocks_frame (l : List BlockItem) (c : Chip) :
    (l.foldl recycleBlock c).inReset = c.inReset ∧ (l.foldl recycleBlock c).self = c.self ∧
    (l.foldl recycleBlock c).now = c.now ∧ (l.foldl recycleBlock c).freeIndex = c.freeIndex ∧
    (l.foldl recycleBlock c).cmd = c.cmd ∧ (l.foldl recycleBlock c).fold = c.fold ∧
    (l.foldl recycleBlock c).intake = c.intake ∧ (l.foldl recycleBlock c).link = c.link ∧
    (l.foldl recycleBlock c).slots = c.slots ∧ (l.foldl recycleBlock c).extFree = c.extFree ∧
    (l.foldl recycleBlock c).pendFree = c.pendFree ∧ (l.foldl recycleBlock c).cache = c.cache ∧
    (l.foldl recycleBlock c).retired = c.retired ∧ (l.foldl recycleBlock c).nextSeq = c.nextSeq ∧
    (l.foldl recycleBlock c).pair = c.pair ∧ (l.foldl recycleBlock c).verdicts = c.verdicts ∧
    (l.foldl recycleBlock c).notice.queue = c.notice.queue ∧ (l.foldl recycleBlock c).notice.re = c.notice.re ∧
    (l.foldl recycleBlock c).notice.latches = c.notice.latches ∧
    (l.foldl recycleBlock c).notice.writing = c.notice.writing ∧ (l.foldl recycleBlock c).notice.poll = c.notice.poll ∧
    (l.foldl recycleBlock c).notice.pn = c.notice.pn ∧ (l.foldl recycleBlock c).notice.cn = c.notice.cn ∧
    (l.foldl recycleBlock c).payloadWrites = c.payloadWrites ∧
    (l.foldl recycleBlock c).handlesTaken = c.handlesTaken := by
  induction l generalizing c with
  | nil => simp
  | cons b l ih => have h := ih (c.recycleBlock b); simpa using h

/-- What `leaveClaiming` leaves unchanged. -/
@[simp] theorem Chip.leaveClaiming_frame (c : Chip) (t : Tag) (a : Anchor) :
    (c.leaveClaiming t a).inReset = c.inReset ∧ (c.leaveClaiming t a).self = c.self ∧ (c.leaveClaiming t a).now = c.now ∧
    (c.leaveClaiming t a).freeIndex = c.freeIndex ∧ (c.leaveClaiming t a).cmd = c.cmd ∧
    (c.leaveClaiming t a).fold = c.fold ∧ (c.leaveClaiming t a).intake = c.intake ∧
    (c.leaveClaiming t a).link.state = c.link.state ∧ (c.leaveClaiming t a).link.settle = c.link.settle ∧
    (c.leaveClaiming t a).link.hold = c.link.hold ∧ (c.leaveClaiming t a).link.nextPoint = c.link.nextPoint ∧
    (c.leaveClaiming t a).link.lastPoint = c.link.lastPoint ∧ (c.leaveClaiming t a).link.beaconCount = c.link.beaconCount ∧
    (c.leaveClaiming t a).link.mediumIdle = c.link.mediumIdle ∧ (c.leaveClaiming t a).link.receiver = c.link.receiver ∧
    (c.leaveClaiming t a).link.presence = c.link.presence ∧ (c.leaveClaiming t a).link.strike = c.link.strike ∧
    (c.leaveClaiming t a).extFree = c.extFree ∧ (c.leaveClaiming t a).pendFree = c.pendFree ∧
    (c.leaveClaiming t a).cache = c.cache ∧ (c.leaveClaiming t a).retired = c.retired ∧
    (c.leaveClaiming t a).nextSeq = c.nextSeq ∧ (c.leaveClaiming t a).pair = c.pair ∧
    (c.leaveClaiming t a).verdicts = c.verdicts ∧ (c.leaveClaiming t a).small = c.small ∧
    (c.leaveClaiming t a).large = c.large ∧ (c.leaveClaiming t a).notice.re = c.notice.re ∧
    (c.leaveClaiming t a).notice.latches = c.notice.latches ∧ (c.leaveClaiming t a).notice.writing = c.notice.writing ∧
    (c.leaveClaiming t a).notice.poll = c.notice.poll ∧ (c.leaveClaiming t a).notice.pn = c.notice.pn ∧
    (c.leaveClaiming t a).notice.cn = c.notice.cn ∧ (c.leaveClaiming t a).payloadWrites = c.payloadWrites ∧
    (c.leaveClaiming t a).handlesTaken = c.handlesTaken := by
  simp [leaveClaiming]

/-- What `endAnchor` leaves unchanged. -/
@[simp] theorem Chip.endAnchor_frame (c : Chip) (i : Nat) (o : ObjOutcome) (r : Option (Nat × Nat)) :
    (c.endAnchor i o r).inReset = c.inReset ∧ (c.endAnchor i o r).self = c.self ∧ (c.endAnchor i o r).now = c.now ∧
    (c.endAnchor i o r).freeIndex = c.freeIndex ∧ (c.endAnchor i o r).cmd = c.cmd ∧ (c.endAnchor i o r).fold = c.fold ∧
    (c.endAnchor i o r).intake = c.intake ∧ (c.endAnchor i o r).link.state = c.link.state ∧
    (c.endAnchor i o r).link.settle = c.link.settle ∧ (c.endAnchor i o r).link.hold = c.link.hold ∧
    (c.endAnchor i o r).link.nextPoint = c.link.nextPoint ∧ (c.endAnchor i o r).link.lastPoint = c.link.lastPoint ∧
    (c.endAnchor i o r).link.beaconCount = c.link.beaconCount ∧ (c.endAnchor i o r).link.mediumIdle = c.link.mediumIdle ∧
    (c.endAnchor i o r).link.receiver = c.link.receiver ∧ (c.endAnchor i o r).link.presence = c.link.presence ∧
    (c.endAnchor i o r).link.strike = c.link.strike ∧ (c.endAnchor i o r).pendFree = c.pendFree ∧
    (c.endAnchor i o r).nextSeq = c.nextSeq ∧ (c.endAnchor i o r).pair = c.pair ∧
    (c.endAnchor i o r).verdicts = c.verdicts ∧ (c.endAnchor i o r).small = c.small ∧ (c.endAnchor i o r).large = c.large ∧
    (c.endAnchor i o r).notice.latches = c.notice.latches ∧ (c.endAnchor i o r).notice.writing = c.notice.writing ∧
    (c.endAnchor i o r).notice.poll = c.notice.poll ∧ (c.endAnchor i o r).notice.pn = c.notice.pn ∧
    (c.endAnchor i o r).notice.cn = c.notice.cn ∧ (c.endAnchor i o r).payloadWrites = c.payloadWrites ∧
    (c.endAnchor i o r).handlesTaken = c.handlesTaken := by
  unfold endAnchor
  repeat' split
  all_goals simp

/-- What `frontTest` leaves unchanged. -/
@[simp] theorem Chip.frontTest_frame (c : Chip) (i : Nat) :
    (c.frontTest i).inReset = c.inReset ∧ (c.frontTest i).self = c.self ∧ (c.frontTest i).now = c.now ∧
    (c.frontTest i).freeIndex = c.freeIndex ∧ (c.frontTest i).cmd.mode = c.cmd.mode ∧
    (c.frontTest i).cmd.staging = c.cmd.staging ∧ (c.frontTest i).cmd.setup = c.cmd.setup ∧
    (c.frontTest i).cmd.memory = c.cmd.memory ∧ (c.frontTest i).cmd.restartNumber = c.cmd.restartNumber ∧
    (c.frontTest i).cmd.faultAtEnd = c.cmd.faultAtEnd ∧ (c.frontTest i).cmd.faultPin = c.cmd.faultPin ∧
    (c.frontTest i).fold = c.fold ∧ (c.frontTest i).intake = c.intake ∧ (c.frontTest i).link = c.link ∧
    (c.frontTest i).extFree = c.extFree ∧ (c.frontTest i).pendFree = c.pendFree ∧ (c.frontTest i).cache = c.cache ∧
    (c.frontTest i).retired = c.retired ∧ (c.frontTest i).nextSeq = c.nextSeq ∧ (c.frontTest i).pair = c.pair ∧
    (c.frontTest i).verdicts = c.verdicts ∧ (c.frontTest i).small = c.small ∧ (c.frontTest i).large = c.large ∧
    (c.frontTest i).notice.re = c.notice.re ∧ (c.frontTest i).notice.rb = c.notice.rb ∧
    (c.frontTest i).notice.latches = c.notice.latches ∧ (c.frontTest i).notice.writing = c.notice.writing ∧
    (c.frontTest i).notice.poll = c.notice.poll ∧ (c.frontTest i).notice.pn = c.notice.pn ∧
    (c.frontTest i).notice.cn = c.notice.cn ∧ (c.frontTest i).payloadWrites = c.payloadWrites ∧
    (c.frontTest i).handlesTaken = c.handlesTaken := by
  unfold frontTest
  split
  · simp
  · dsimp only
    split
    · split <;> simp
    · simp

/-- What `completeOrFront` leaves unchanged. -/
@[simp] theorem Chip.completeOrFront_frame (c : Chip) (i : Nat) :
    (c.completeOrFront i).inReset = c.inReset ∧ (c.completeOrFront i).self = c.self ∧ (c.completeOrFront i).now = c.now ∧
    (c.completeOrFront i).freeIndex = c.freeIndex ∧ (c.completeOrFront i).cmd.mode = c.cmd.mode ∧
    (c.completeOrFront i).cmd.staging = c.cmd.staging ∧ (c.completeOrFront i).cmd.setup = c.cmd.setup ∧
    (c.completeOrFront i).cmd.memory = c.cmd.memory ∧ (c.completeOrFront i).cmd.restartNumber = c.cmd.restartNumber ∧
    (c.completeOrFront i).cmd.faultAtEnd = c.cmd.faultAtEnd ∧ (c.completeOrFront i).cmd.faultPin = c.cmd.faultPin ∧
    (c.completeOrFront i).fold = c.fold ∧ (c.completeOrFront i).intake = c.intake ∧
    (c.completeOrFront i).link.state = c.link.state ∧ (c.completeOrFront i).link.settle = c.link.settle ∧
    (c.completeOrFront i).link.hold = c.link.hold ∧ (c.completeOrFront i).link.nextPoint = c.link.nextPoint ∧
    (c.completeOrFront i).link.lastPoint = c.link.lastPoint ∧ (c.completeOrFront i).link.beaconCount = c.link.beaconCount ∧
    (c.completeOrFront i).link.mediumIdle = c.link.mediumIdle ∧ (c.completeOrFront i).link.receiver = c.link.receiver ∧
    (c.completeOrFront i).link.presence = c.link.presence ∧ (c.completeOrFront i).link.strike = c.link.strike ∧
    (c.completeOrFront i).pendFree = c.pendFree ∧ (c.completeOrFront i).nextSeq = c.nextSeq ∧
    (c.completeOrFront i).pair = c.pair ∧ (c.completeOrFront i).verdicts = c.verdicts ∧
    (c.completeOrFront i).small = c.small ∧ (c.completeOrFront i).large = c.large ∧
    (c.completeOrFront i).notice.latches = c.notice.latches ∧ (c.completeOrFront i).notice.writing = c.notice.writing ∧
    (c.completeOrFront i).notice.poll = c.notice.poll ∧ (c.completeOrFront i).notice.pn = c.notice.pn ∧
    (c.completeOrFront i).notice.cn = c.notice.cn ∧ (c.completeOrFront i).payloadWrites = c.payloadWrites ∧
    (c.completeOrFront i).handlesTaken = c.handlesTaken := by
  unfold completeOrFront
  repeat' split
  all_goals simp

/-- What `enterBlock` leaves unchanged. -/
@[simp] theorem Chip.enterBlock_frame (c : Chip) (i k n sum : Nat) :
    (c.enterBlock i k n sum).inReset = c.inReset ∧ (c.enterBlock i k n sum).self = c.self ∧
    (c.enterBlock i k n sum).now = c.now ∧ (c.enterBlock i k n sum).freeIndex = c.freeIndex ∧
    (c.enterBlock i k n sum).cmd = c.cmd ∧ (c.enterBlock i k n sum).fold = c.fold ∧
    (c.enterBlock i k n sum).intake = c.intake ∧ (c.enterBlock i k n sum).link = c.link ∧
    (c.enterBlock i k n sum).pendFree = c.pendFree ∧ (c.enterBlock i k n sum).cache = c.cache ∧
    (c.enterBlock i k n sum).retired = c.retired ∧ (c.enterBlock i k n sum).nextSeq = c.nextSeq ∧
    (c.enterBlock i k n sum).pair = c.pair ∧ (c.enterBlock i k n sum).verdicts = c.verdicts ∧
    (c.enterBlock i k n sum).small = c.small ∧ (c.enterBlock i k n sum).large = c.large ∧
    (c.enterBlock i k n sum).notice = c.notice ∧ (c.enterBlock i k n sum).payloadWrites = c.payloadWrites ∧
    (c.enterBlock i k n sum).handlesTaken = c.handlesTaken := by
  unfold enterBlock
  repeat' split
  all_goals simp

/-- What `acceptLocal` leaves unchanged. -/
@[simp] theorem Chip.acceptLocal_frame (c : Chip) (i : Nat) (t : Tag) (b : BlockItem) :
    (c.acceptLocal i t b).inReset = c.inReset ∧ (c.acceptLocal i t b).self = c.self ∧ (c.acceptLocal i t b).now = c.now ∧
    (c.acceptLocal i t b).freeIndex = c.freeIndex ∧ (c.acceptLocal i t b).cmd.mode = c.cmd.mode ∧
    (c.acceptLocal i t b).cmd.staging = c.cmd.staging ∧ (c.acceptLocal i t b).cmd.setup = c.cmd.setup ∧
    (c.acceptLocal i t b).cmd.memory = c.cmd.memory ∧ (c.acceptLocal i t b).cmd.restartNumber = c.cmd.restartNumber ∧
    (c.acceptLocal i t b).cmd.faultAtEnd = c.cmd.faultAtEnd ∧ (c.acceptLocal i t b).cmd.faultPin = c.cmd.faultPin ∧
    (c.acceptLocal i t b).fold = c.fold ∧ (c.acceptLocal i t b).intake = c.intake ∧
    (c.acceptLocal i t b).link.state = c.link.state ∧ (c.acceptLocal i t b).link.settle = c.link.settle ∧
    (c.acceptLocal i t b).link.hold = c.link.hold ∧ (c.acceptLocal i t b).link.nextPoint = c.link.nextPoint ∧
    (c.acceptLocal i t b).link.lastPoint = c.link.lastPoint ∧ (c.acceptLocal i t b).link.beaconCount = c.link.beaconCount ∧
    (c.acceptLocal i t b).link.mediumIdle = c.link.mediumIdle ∧ (c.acceptLocal i t b).link.receiver = c.link.receiver ∧
    (c.acceptLocal i t b).link.presence = c.link.presence ∧ (c.acceptLocal i t b).link.strike = c.link.strike ∧
    (c.acceptLocal i t b).pendFree = c.pendFree ∧ (c.acceptLocal i t b).nextSeq = c.nextSeq ∧
    (c.acceptLocal i t b).pair = c.pair ∧ (c.acceptLocal i t b).verdicts = c.verdicts ∧
    (c.acceptLocal i t b).small = c.small ∧ (c.acceptLocal i t b).large = c.large ∧
    (c.acceptLocal i t b).notice.latches = c.notice.latches ∧ (c.acceptLocal i t b).notice.writing = c.notice.writing ∧
    (c.acceptLocal i t b).notice.poll = c.notice.poll ∧ (c.acceptLocal i t b).notice.pn = c.notice.pn ∧
    (c.acceptLocal i t b).notice.cn = c.notice.cn ∧ (c.acceptLocal i t b).payloadWrites = c.payloadWrites ∧
    (c.acceptLocal i t b).handlesTaken = c.handlesTaken := by
  simp [acceptLocal]

/-- What `addProvisional` leaves unchanged. -/
@[simp] theorem Chip.addProvisional_frame (c : Chip) (i : Nat) (b : BlockItem) :
    (c.addProvisional i b).inReset = c.inReset ∧ (c.addProvisional i b).self = c.self ∧ (c.addProvisional i b).now = c.now ∧
    (c.addProvisional i b).freeIndex = c.freeIndex ∧ (c.addProvisional i b).cmd = c.cmd ∧
    (c.addProvisional i b).fold = c.fold ∧ (c.addProvisional i b).intake = c.intake ∧ (c.addProvisional i b).link = c.link ∧
    (c.addProvisional i b).pendFree = c.pendFree ∧ (c.addProvisional i b).cache = c.cache ∧
    (c.addProvisional i b).retired = c.retired ∧ (c.addProvisional i b).nextSeq = c.nextSeq ∧
    (c.addProvisional i b).pair = c.pair ∧ (c.addProvisional i b).verdicts = c.verdicts ∧
    (c.addProvisional i b).small = c.small ∧ (c.addProvisional i b).large = c.large ∧
    (c.addProvisional i b).notice = c.notice ∧ (c.addProvisional i b).payloadWrites = c.payloadWrites ∧
    (c.addProvisional i b).handlesTaken = c.handlesTaken := by
  simp only [addProvisional]
  split
  all_goals simp

/-- What `joinFeeder` leaves unchanged. -/
@[simp] theorem Chip.joinFeeder_frame (c : Chip) (i : Nat) (x : Station) :
    (c.joinFeeder i x).inReset = c.inReset ∧ (c.joinFeeder i x).self = c.self ∧ (c.joinFeeder i x).now = c.now ∧
    (c.joinFeeder i x).freeIndex = c.freeIndex ∧ (c.joinFeeder i x).cmd = c.cmd ∧ (c.joinFeeder i x).fold = c.fold ∧
    (c.joinFeeder i x).intake = c.intake ∧ (c.joinFeeder i x).link = c.link ∧ (c.joinFeeder i x).extFree = c.extFree ∧
    (c.joinFeeder i x).pendFree = c.pendFree ∧ (c.joinFeeder i x).cache = c.cache ∧ (c.joinFeeder i x).retired = c.retired ∧
    (c.joinFeeder i x).nextSeq = c.nextSeq ∧ (c.joinFeeder i x).pair = c.pair ∧ (c.joinFeeder i x).verdicts = c.verdicts ∧
    (c.joinFeeder i x).small = c.small ∧ (c.joinFeeder i x).large = c.large ∧ (c.joinFeeder i x).notice = c.notice ∧
    (c.joinFeeder i x).payloadWrites = c.payloadWrites ∧
    (c.joinFeeder i x).handlesTaken = c.handlesTaken := by
  unfold joinFeeder
  repeat' split
  all_goals simp

/-- What `addLocalDup` leaves unchanged. -/
@[simp] theorem Chip.addLocalDup_frame (c : Chip) (i : Nat) :
    (c.addLocalDup i).inReset = c.inReset ∧ (c.addLocalDup i).self = c.self ∧ (c.addLocalDup i).now = c.now ∧
    (c.addLocalDup i).freeIndex = c.freeIndex ∧ (c.addLocalDup i).cmd = c.cmd ∧ (c.addLocalDup i).fold = c.fold ∧
    (c.addLocalDup i).intake = c.intake ∧ (c.addLocalDup i).link = c.link ∧ (c.addLocalDup i).extFree = c.extFree ∧
    (c.addLocalDup i).pendFree = c.pendFree ∧ (c.addLocalDup i).cache = c.cache ∧ (c.addLocalDup i).retired = c.retired ∧
    (c.addLocalDup i).nextSeq = c.nextSeq ∧ (c.addLocalDup i).pair = c.pair ∧ (c.addLocalDup i).verdicts = c.verdicts ∧
    (c.addLocalDup i).small = c.small ∧ (c.addLocalDup i).large = c.large ∧ (c.addLocalDup i).notice = c.notice ∧
    (c.addLocalDup i).payloadWrites = c.payloadWrites ∧
    (c.addLocalDup i).handlesTaken = c.handlesTaken := by
  unfold addLocalDup
  repeat' split
  all_goals simp

/-- What `addPeerDup` leaves unchanged. -/
@[simp] theorem Chip.addPeerDup_frame (c : Chip) (i : Nat) :
    (c.addPeerDup i).inReset = c.inReset ∧ (c.addPeerDup i).self = c.self ∧ (c.addPeerDup i).now = c.now ∧
    (c.addPeerDup i).freeIndex = c.freeIndex ∧ (c.addPeerDup i).cmd = c.cmd ∧ (c.addPeerDup i).fold = c.fold ∧
    (c.addPeerDup i).intake = c.intake ∧ (c.addPeerDup i).link = c.link ∧ (c.addPeerDup i).extFree = c.extFree ∧
    (c.addPeerDup i).pendFree = c.pendFree ∧ (c.addPeerDup i).cache = c.cache ∧ (c.addPeerDup i).retired = c.retired ∧
    (c.addPeerDup i).nextSeq = c.nextSeq ∧ (c.addPeerDup i).pair = c.pair ∧ (c.addPeerDup i).verdicts = c.verdicts ∧
    (c.addPeerDup i).small = c.small ∧ (c.addPeerDup i).large = c.large ∧ (c.addPeerDup i).notice = c.notice ∧
    (c.addPeerDup i).payloadWrites = c.payloadWrites ∧
    (c.addPeerDup i).handlesTaken = c.handlesTaken := by
  unfold addPeerDup
  repeat' split
  all_goals simp

/-- What `addRefused` leaves unchanged. -/
@[simp] theorem Chip.addRefused_frame (c : Chip) (i : Nat) :
    (c.addRefused i).inReset = c.inReset ∧ (c.addRefused i).self = c.self ∧ (c.addRefused i).now = c.now ∧
    (c.addRefused i).freeIndex = c.freeIndex ∧ (c.addRefused i).cmd = c.cmd ∧ (c.addRefused i).fold = c.fold ∧
    (c.addRefused i).intake = c.intake ∧ (c.addRefused i).link = c.link ∧ (c.addRefused i).extFree = c.extFree ∧
    (c.addRefused i).pendFree = c.pendFree ∧ (c.addRefused i).cache = c.cache ∧ (c.addRefused i).retired = c.retired ∧
    (c.addRefused i).nextSeq = c.nextSeq ∧ (c.addRefused i).pair = c.pair ∧ (c.addRefused i).verdicts = c.verdicts ∧
    (c.addRefused i).small = c.small ∧ (c.addRefused i).large = c.large ∧ (c.addRefused i).notice = c.notice ∧
    (c.addRefused i).payloadWrites = c.payloadWrites ∧
    (c.addRefused i).handlesTaken = c.handlesTaken := by
  unfold addRefused
  repeat' split
  all_goals simp

/-- What `restartIdle` leaves unchanged. -/
@[simp] theorem Chip.restartIdle_frame (c : Chip) (i : Nat) :
    (c.restartIdle i).inReset = c.inReset ∧ (c.restartIdle i).self = c.self ∧ (c.restartIdle i).now = c.now ∧
    (c.restartIdle i).freeIndex = c.freeIndex ∧ (c.restartIdle i).cmd = c.cmd ∧ (c.restartIdle i).fold = c.fold ∧
    (c.restartIdle i).intake = c.intake ∧ (c.restartIdle i).link = c.link ∧ (c.restartIdle i).extFree = c.extFree ∧
    (c.restartIdle i).pendFree = c.pendFree ∧ (c.restartIdle i).cache = c.cache ∧ (c.restartIdle i).retired = c.retired ∧
    (c.restartIdle i).nextSeq = c.nextSeq ∧ (c.restartIdle i).pair = c.pair ∧ (c.restartIdle i).verdicts = c.verdicts ∧
    (c.restartIdle i).small = c.small ∧ (c.restartIdle i).large = c.large ∧ (c.restartIdle i).notice = c.notice ∧
    (c.restartIdle i).payloadWrites = c.payloadWrites ∧
    (c.restartIdle i).handlesTaken = c.handlesTaken := by
  unfold restartIdle
  repeat' split
  all_goals simp

/-- What `offerClose` leaves unchanged. -/
@[simp] theorem Chip.offerClose_frame (c : Chip) (i l e k : Nat) :
    ((c.offerClose i l e k).1).inReset = c.inReset ∧ ((c.offerClose i l e k).1).self = c.self ∧
    ((c.offerClose i l e k).1).now = c.now ∧ ((c.offerClose i l e k).1).freeIndex = c.freeIndex ∧
    ((c.offerClose i l e k).1).cmd.mode = c.cmd.mode ∧ ((c.offerClose i l e k).1).cmd.staging = c.cmd.staging ∧
    ((c.offerClose i l e k).1).cmd.setup = c.cmd.setup ∧ ((c.offerClose i l e k).1).cmd.memory = c.cmd.memory ∧
    ((c.offerClose i l e k).1).cmd.restartNumber = c.cmd.restartNumber ∧
    ((c.offerClose i l e k).1).cmd.faultAtEnd = c.cmd.faultAtEnd ∧
    ((c.offerClose i l e k).1).cmd.faultPin = c.cmd.faultPin ∧ ((c.offerClose i l e k).1).fold = c.fold ∧
    ((c.offerClose i l e k).1).intake = c.intake ∧ ((c.offerClose i l e k).1).link.state = c.link.state ∧
    ((c.offerClose i l e k).1).link.settle = c.link.settle ∧ ((c.offerClose i l e k).1).link.hold = c.link.hold ∧
    ((c.offerClose i l e k).1).link.nextPoint = c.link.nextPoint ∧
    ((c.offerClose i l e k).1).link.lastPoint = c.link.lastPoint ∧
    ((c.offerClose i l e k).1).link.beaconCount = c.link.beaconCount ∧
    ((c.offerClose i l e k).1).link.mediumIdle = c.link.mediumIdle ∧
    ((c.offerClose i l e k).1).link.receiver = c.link.receiver ∧
    ((c.offerClose i l e k).1).link.presence = c.link.presence ∧ ((c.offerClose i l e k).1).link.strike = c.link.strike ∧
    ((c.offerClose i l e k).1).pendFree = c.pendFree ∧ ((c.offerClose i l e k).1).nextSeq = c.nextSeq ∧
    ((c.offerClose i l e k).1).pair = c.pair ∧ ((c.offerClose i l e k).1).verdicts = c.verdicts ∧
    ((c.offerClose i l e k).1).small = c.small ∧ ((c.offerClose i l e k).1).large = c.large ∧
    ((c.offerClose i l e k).1).notice.latches = c.notice.latches ∧
    ((c.offerClose i l e k).1).notice.writing = c.notice.writing ∧ ((c.offerClose i l e k).1).notice.poll = c.notice.poll ∧
    ((c.offerClose i l e k).1).notice.pn = c.notice.pn ∧ ((c.offerClose i l e k).1).notice.cn = c.notice.cn ∧
    ((c.offerClose i l e k).1).payloadWrites = c.payloadWrites ∧
    ((c.offerClose i l e k).1).handlesTaken = c.handlesTaken := by
  simp only [offerClose]
  repeat' split
  all_goals simp

/-- What `offerClaim` leaves unchanged. -/
@[simp] theorem Chip.offerClaim_frame (c : Chip) (i : Nat) :
    (c.offerClaim i).inReset = c.inReset ∧ (c.offerClaim i).self = c.self ∧ (c.offerClaim i).now = c.now ∧
    (c.offerClaim i).freeIndex = c.freeIndex ∧ (c.offerClaim i).cmd = c.cmd ∧ (c.offerClaim i).fold = c.fold ∧
    (c.offerClaim i).intake = c.intake ∧ (c.offerClaim i).link.state = c.link.state ∧
    (c.offerClaim i).link.settle = c.link.settle ∧ (c.offerClaim i).link.hold = c.link.hold ∧
    (c.offerClaim i).link.nextPoint = c.link.nextPoint ∧ (c.offerClaim i).link.lastPoint = c.link.lastPoint ∧
    (c.offerClaim i).link.beaconCount = c.link.beaconCount ∧ (c.offerClaim i).link.mediumIdle = c.link.mediumIdle ∧
    (c.offerClaim i).link.receiver = c.link.receiver ∧ (c.offerClaim i).link.presence = c.link.presence ∧
    (c.offerClaim i).link.strike = c.link.strike ∧ (c.offerClaim i).link.wire = c.link.wire ∧
    (c.offerClaim i).extFree = c.extFree ∧ (c.offerClaim i).pendFree = c.pendFree ∧ (c.offerClaim i).cache = c.cache ∧
    (c.offerClaim i).retired = c.retired ∧ (c.offerClaim i).nextSeq = c.nextSeq ∧ (c.offerClaim i).pair = c.pair ∧
    (c.offerClaim i).verdicts = c.verdicts ∧ (c.offerClaim i).small = c.small ∧ (c.offerClaim i).large = c.large ∧
    (c.offerClaim i).notice = c.notice ∧ (c.offerClaim i).payloadWrites = c.payloadWrites ∧
    (c.offerClaim i).handlesTaken = c.handlesTaken := by
  unfold offerClaim
  repeat' split
  all_goals simp

/-- What `offerReassert` leaves unchanged. -/
@[simp] theorem Chip.offerReassert_frame (c : Chip) (t : Tag) :
    (c.offerReassert t).inReset = c.inReset ∧ (c.offerReassert t).self = c.self ∧ (c.offerReassert t).now = c.now ∧
    (c.offerReassert t).freeIndex = c.freeIndex ∧ (c.offerReassert t).cmd = c.cmd ∧ (c.offerReassert t).fold = c.fold ∧
    (c.offerReassert t).intake = c.intake ∧ (c.offerReassert t).link.state = c.link.state ∧
    (c.offerReassert t).link.settle = c.link.settle ∧ (c.offerReassert t).link.hold = c.link.hold ∧
    (c.offerReassert t).link.nextPoint = c.link.nextPoint ∧ (c.offerReassert t).link.lastPoint = c.link.lastPoint ∧
    (c.offerReassert t).link.beaconCount = c.link.beaconCount ∧ (c.offerReassert t).link.mediumIdle = c.link.mediumIdle ∧
    (c.offerReassert t).link.receiver = c.link.receiver ∧ (c.offerReassert t).link.presence = c.link.presence ∧
    (c.offerReassert t).link.strike = c.link.strike ∧ (c.offerReassert t).link.wire = c.link.wire ∧
    (c.offerReassert t).slots = c.slots ∧ (c.offerReassert t).extFree = c.extFree ∧
    (c.offerReassert t).pendFree = c.pendFree ∧ (c.offerReassert t).cache = c.cache ∧
    (c.offerReassert t).retired = c.retired ∧ (c.offerReassert t).nextSeq = c.nextSeq ∧ (c.offerReassert t).pair = c.pair ∧
    (c.offerReassert t).verdicts = c.verdicts ∧ (c.offerReassert t).small = c.small ∧ (c.offerReassert t).large = c.large ∧
    (c.offerReassert t).notice = c.notice ∧ (c.offerReassert t).payloadWrites = c.payloadWrites ∧
    (c.offerReassert t).handlesTaken = c.handlesTaken := by
  unfold offerReassert
  repeat' split
  all_goals simp

/-- What `setPair` leaves unchanged. -/
@[simp] theorem Chip.setPair_frame (c : Chip) (x : Station) (o : Option Nat) :
    (c.setPair x o).inReset = c.inReset ∧ (c.setPair x o).self = c.self ∧ (c.setPair x o).now = c.now ∧
    (c.setPair x o).freeIndex = c.freeIndex ∧ (c.setPair x o).cmd = c.cmd ∧ (c.setPair x o).fold = c.fold ∧
    (c.setPair x o).intake = c.intake ∧ (c.setPair x o).link = c.link ∧ (c.setPair x o).slots = c.slots ∧
    (c.setPair x o).extFree = c.extFree ∧ (c.setPair x o).pendFree = c.pendFree ∧ (c.setPair x o).cache = c.cache ∧
    (c.setPair x o).retired = c.retired ∧ (c.setPair x o).nextSeq = c.nextSeq ∧ (c.setPair x o).verdicts = c.verdicts ∧
    (c.setPair x o).small = c.small ∧ (c.setPair x o).large = c.large ∧ (c.setPair x o).notice = c.notice ∧
    (c.setPair x o).payloadWrites = c.payloadWrites ∧
    (c.setPair x o).handlesTaken = c.handlesTaken := by
  simp [setPair]

/-- What `removeAdvisory` leaves unchanged. -/
@[simp] theorem Chip.removeAdvisory_frame (c : Chip) (i k : Nat) :
    (c.removeAdvisory i k).inReset = c.inReset ∧ (c.removeAdvisory i k).self = c.self ∧ (c.removeAdvisory i k).now = c.now ∧
    (c.removeAdvisory i k).freeIndex = c.freeIndex ∧ (c.removeAdvisory i k).cmd = c.cmd ∧
    (c.removeAdvisory i k).fold = c.fold ∧ (c.removeAdvisory i k).intake = c.intake ∧ (c.removeAdvisory i k).link = c.link ∧
    (c.removeAdvisory i k).pendFree = c.pendFree ∧ (c.removeAdvisory i k).cache = c.cache ∧
    (c.removeAdvisory i k).retired = c.retired ∧ (c.removeAdvisory i k).nextSeq = c.nextSeq ∧
    (c.removeAdvisory i k).pair = c.pair ∧ (c.removeAdvisory i k).verdicts = c.verdicts ∧
    (c.removeAdvisory i k).small = c.small ∧ (c.removeAdvisory i k).large = c.large ∧
    (c.removeAdvisory i k).notice = c.notice ∧ (c.removeAdvisory i k).payloadWrites = c.payloadWrites ∧
    (c.removeAdvisory i k).handlesTaken = c.handlesTaken := by
  unfold removeAdvisory
  repeat' split
  all_goals simp

/-- What `formTally` leaves unchanged. -/
@[simp] theorem Chip.formTally_frame (c : Chip) (i : Nat) :
    (c.formTally i).inReset = c.inReset ∧ (c.formTally i).self = c.self ∧ (c.formTally i).now = c.now ∧
    (c.formTally i).freeIndex = c.freeIndex ∧ (c.formTally i).cmd = c.cmd ∧ (c.formTally i).fold = c.fold ∧
    (c.formTally i).intake = c.intake ∧ (c.formTally i).link.state = c.link.state ∧
    (c.formTally i).link.settle = c.link.settle ∧ (c.formTally i).link.hold = c.link.hold ∧
    (c.formTally i).link.nextPoint = c.link.nextPoint ∧ (c.formTally i).link.lastPoint = c.link.lastPoint ∧
    (c.formTally i).link.beaconCount = c.link.beaconCount ∧ (c.formTally i).link.mediumIdle = c.link.mediumIdle ∧
    (c.formTally i).link.receiver = c.link.receiver ∧ (c.formTally i).link.presence = c.link.presence ∧
    (c.formTally i).link.strike = c.link.strike ∧ (c.formTally i).link.wire = c.link.wire ∧
    (c.formTally i).extFree = c.extFree ∧ (c.formTally i).pendFree = c.pendFree ∧ (c.formTally i).cache = c.cache ∧
    (c.formTally i).retired = c.retired ∧ (c.formTally i).verdicts = c.verdicts ∧ (c.formTally i).small = c.small ∧
    (c.formTally i).large = c.large ∧ (c.formTally i).notice = c.notice ∧
    (c.formTally i).payloadWrites = c.payloadWrites ∧
    (c.formTally i).handlesTaken = c.handlesTaken := by
  unfold formTally
  repeat' split
  all_goals simp

/-- What `arbitrateStation` leaves unchanged. -/
@[simp] theorem Chip.arbitrateStation_frame (c : Chip) (x : Station) :
    (c.arbitrateStation x).inReset = c.inReset ∧ (c.arbitrateStation x).self = c.self ∧ (c.arbitrateStation x).now = c.now ∧
    (c.arbitrateStation x).freeIndex = c.freeIndex ∧ (c.arbitrateStation x).cmd = c.cmd ∧
    (c.arbitrateStation x).fold = c.fold ∧ (c.arbitrateStation x).intake = c.intake ∧
    (c.arbitrateStation x).link.state = c.link.state ∧ (c.arbitrateStation x).link.settle = c.link.settle ∧
    (c.arbitrateStation x).link.hold = c.link.hold ∧ (c.arbitrateStation x).link.nextPoint = c.link.nextPoint ∧
    (c.arbitrateStation x).link.lastPoint = c.link.lastPoint ∧
    (c.arbitrateStation x).link.beaconCount = c.link.beaconCount ∧
    (c.arbitrateStation x).link.mediumIdle = c.link.mediumIdle ∧ (c.arbitrateStation x).link.receiver = c.link.receiver ∧
    (c.arbitrateStation x).link.presence = c.link.presence ∧ (c.arbitrateStation x).link.strike = c.link.strike ∧
    (c.arbitrateStation x).link.wire = c.link.wire ∧ (c.arbitrateStation x).extFree = c.extFree ∧
    (c.arbitrateStation x).pendFree = c.pendFree ∧ (c.arbitrateStation x).cache = c.cache ∧
    (c.arbitrateStation x).retired = c.retired ∧ (c.arbitrateStation x).verdicts = c.verdicts ∧
    (c.arbitrateStation x).small = c.small ∧ (c.arbitrateStation x).large = c.large ∧
    (c.arbitrateStation x).notice = c.notice ∧ (c.arbitrateStation x).payloadWrites = c.payloadWrites ∧
    (c.arbitrateStation x).handlesTaken = c.handlesTaken := by
  unfold arbitrateStation
  repeat' split
  all_goals simp

/-- What `arbitrateAll` leaves unchanged. -/
@[simp] theorem Chip.arbitrateAll_frame (l : List Station) (c : Chip) :
    (l.foldl arbitrateStation c).inReset = c.inReset ∧ (l.foldl arbitrateStation c).self = c.self ∧
    (l.foldl arbitrateStation c).now = c.now ∧ (l.foldl arbitrateStation c).freeIndex = c.freeIndex ∧
    (l.foldl arbitrateStation c).cmd = c.cmd ∧ (l.foldl arbitrateStation c).fold = c.fold ∧
    (l.foldl arbitrateStation c).intake = c.intake ∧ (l.foldl arbitrateStation c).link.state = c.link.state ∧
    (l.foldl arbitrateStation c).link.settle = c.link.settle ∧ (l.foldl arbitrateStation c).link.hold = c.link.hold ∧
    (l.foldl arbitrateStation c).link.nextPoint = c.link.nextPoint ∧
    (l.foldl arbitrateStation c).link.lastPoint = c.link.lastPoint ∧
    (l.foldl arbitrateStation c).link.beaconCount = c.link.beaconCount ∧
    (l.foldl arbitrateStation c).link.mediumIdle = c.link.mediumIdle ∧
    (l.foldl arbitrateStation c).link.receiver = c.link.receiver ∧
    (l.foldl arbitrateStation c).link.presence = c.link.presence ∧
    (l.foldl arbitrateStation c).link.strike = c.link.strike ∧ (l.foldl arbitrateStation c).link.wire = c.link.wire ∧
    (l.foldl arbitrateStation c).extFree = c.extFree ∧ (l.foldl arbitrateStation c).pendFree = c.pendFree ∧
    (l.foldl arbitrateStation c).cache = c.cache ∧ (l.foldl arbitrateStation c).retired = c.retired ∧
    (l.foldl arbitrateStation c).verdicts = c.verdicts ∧ (l.foldl arbitrateStation c).small = c.small ∧
    (l.foldl arbitrateStation c).large = c.large ∧ (l.foldl arbitrateStation c).notice = c.notice ∧
    (l.foldl arbitrateStation c).payloadWrites = c.payloadWrites ∧
    (l.foldl arbitrateStation c).handlesTaken = c.handlesTaken := by
  induction l generalizing c with
  | nil => simp
  | cons b l ih => have h := ih (c.arbitrateStation b); simpa using h

/-- What `arbitrate` leaves unchanged. -/
@[simp] theorem Chip.arbitrate_frame (c : Chip) :
    (c.arbitrate).inReset = c.inReset ∧ (c.arbitrate).self = c.self ∧ (c.arbitrate).now = c.now ∧
    (c.arbitrate).freeIndex = c.freeIndex ∧ (c.arbitrate).cmd = c.cmd ∧ (c.arbitrate).fold = c.fold ∧
    (c.arbitrate).intake = c.intake ∧ (c.arbitrate).link.state = c.link.state ∧ (c.arbitrate).link.settle = c.link.settle ∧
    (c.arbitrate).link.hold = c.link.hold ∧ (c.arbitrate).link.nextPoint = c.link.nextPoint ∧
    (c.arbitrate).link.lastPoint = c.link.lastPoint ∧ (c.arbitrate).link.beaconCount = c.link.beaconCount ∧
    (c.arbitrate).link.mediumIdle = c.link.mediumIdle ∧ (c.arbitrate).link.receiver = c.link.receiver ∧
    (c.arbitrate).link.presence = c.link.presence ∧ (c.arbitrate).link.strike = c.link.strike ∧
    (c.arbitrate).link.wire = c.link.wire ∧ (c.arbitrate).extFree = c.extFree ∧ (c.arbitrate).pendFree = c.pendFree ∧
    (c.arbitrate).cache = c.cache ∧ (c.arbitrate).retired = c.retired ∧ (c.arbitrate).verdicts = c.verdicts ∧
    (c.arbitrate).small = c.small ∧ (c.arbitrate).large = c.large ∧ (c.arbitrate).notice = c.notice ∧
    (c.arbitrate).payloadWrites = c.payloadWrites ∧
    (c.arbitrate).handlesTaken = c.handlesTaken := by
  simp [arbitrate]

/-- What `settleEvent` leaves unchanged. -/
@[simp] theorem Chip.settleEvent_frame (c : Chip) :
    (c.settleEvent).inReset = c.inReset ∧ (c.settleEvent).self = c.self ∧ (c.settleEvent).now = c.now ∧
    (c.settleEvent).freeIndex = c.freeIndex ∧ (c.settleEvent).cmd = c.cmd ∧ (c.settleEvent).fold = c.fold ∧
    (c.settleEvent).link.state = c.link.state ∧ (c.settleEvent).link.settle = c.link.settle ∧
    (c.settleEvent).link.hold = c.link.hold ∧ (c.settleEvent).link.nextPoint = c.link.nextPoint ∧
    (c.settleEvent).link.lastPoint = c.link.lastPoint ∧ (c.settleEvent).link.beaconCount = c.link.beaconCount ∧
    (c.settleEvent).link.mediumIdle = c.link.mediumIdle ∧ (c.settleEvent).link.receiver = c.link.receiver ∧
    (c.settleEvent).link.presence = c.link.presence ∧ (c.settleEvent).link.strike = c.link.strike ∧
    (c.settleEvent).link.wire = c.link.wire ∧ (c.settleEvent).extFree = c.extFree ∧ (c.settleEvent).pendFree = c.pendFree ∧
    (c.settleEvent).cache = c.cache ∧ (c.settleEvent).retired = c.retired ∧ (c.settleEvent).verdicts = c.verdicts ∧
    (c.settleEvent).small = c.small ∧ (c.settleEvent).large = c.large ∧ (c.settleEvent).notice.re = c.notice.re ∧
    (c.settleEvent).notice.rb = c.notice.rb ∧ (c.settleEvent).notice.writing = c.notice.writing ∧
    (c.settleEvent).notice.poll = c.notice.poll ∧ (c.settleEvent).notice.pn = c.notice.pn ∧
    (c.settleEvent).notice.cn = c.notice.cn ∧ (c.settleEvent).payloadWrites = c.payloadWrites ∧
    (c.settleEvent).handlesTaken = c.handlesTaken := by
  simp [settleEvent]

/-- What `freeFeeder` leaves unchanged. -/
@[simp] theorem Chip.freeFeeder_frame (c : Chip) (i : Nat) :
    (c.freeFeeder i).inReset = c.inReset ∧ (c.freeFeeder i).self = c.self ∧ (c.freeFeeder i).now = c.now ∧
    (c.freeFeeder i).freeIndex = c.freeIndex ∧ (c.freeFeeder i).cmd = c.cmd ∧ (c.freeFeeder i).fold = c.fold ∧
    (c.freeFeeder i).intake = c.intake ∧ (c.freeFeeder i).link = c.link ∧ (c.freeFeeder i).pendFree = c.pendFree ∧
    (c.freeFeeder i).cache = c.cache ∧ (c.freeFeeder i).retired = c.retired ∧ (c.freeFeeder i).nextSeq = c.nextSeq ∧
    (c.freeFeeder i).pair = c.pair ∧ (c.freeFeeder i).verdicts = c.verdicts ∧ (c.freeFeeder i).small = c.small ∧
    (c.freeFeeder i).large = c.large ∧ (c.freeFeeder i).notice.queue = c.notice.queue ∧
    (c.freeFeeder i).notice.rb = c.notice.rb ∧ (c.freeFeeder i).notice.latches = c.notice.latches ∧
    (c.freeFeeder i).notice.writing = c.notice.writing ∧ (c.freeFeeder i).notice.poll = c.notice.poll ∧
    (c.freeFeeder i).notice.pn = c.notice.pn ∧ (c.freeFeeder i).notice.cn = c.notice.cn ∧
    (c.freeFeeder i).payloadWrites = c.payloadWrites ∧
    (c.freeFeeder i).handlesTaken = c.handlesTaken := by
  unfold freeFeeder
  repeat' split
  all_goals simp

/-- What `withdrawTally` leaves unchanged. -/
@[simp] theorem Chip.withdrawTally_frame (c : Chip) (t : Tag) (y : Tally) :
    (c.withdrawTally t y).inReset = c.inReset ∧ (c.withdrawTally t y).self = c.self ∧ (c.withdrawTally t y).now = c.now ∧
    (c.withdrawTally t y).freeIndex = c.freeIndex ∧ (c.withdrawTally t y).cmd = c.cmd ∧
    (c.withdrawTally t y).fold = c.fold ∧ (c.withdrawTally t y).intake = c.intake ∧
    (c.withdrawTally t y).link.state = c.link.state ∧ (c.withdrawTally t y).link.settle = c.link.settle ∧
    (c.withdrawTally t y).link.hold = c.link.hold ∧ (c.withdrawTally t y).link.nextPoint = c.link.nextPoint ∧
    (c.withdrawTally t y).link.lastPoint = c.link.lastPoint ∧ (c.withdrawTally t y).link.beaconCount = c.link.beaconCount ∧
    (c.withdrawTally t y).link.mediumIdle = c.link.mediumIdle ∧ (c.withdrawTally t y).link.receiver = c.link.receiver ∧
    (c.withdrawTally t y).link.presence = c.link.presence ∧ (c.withdrawTally t y).link.strike = c.link.strike ∧
    (c.withdrawTally t y).extFree = c.extFree ∧ (c.withdrawTally t y).pendFree = c.pendFree ∧
    (c.withdrawTally t y).cache = c.cache ∧ (c.withdrawTally t y).retired = c.retired ∧
    (c.withdrawTally t y).nextSeq = c.nextSeq ∧ (c.withdrawTally t y).pair = c.pair ∧
    (c.withdrawTally t y).verdicts = c.verdicts ∧ (c.withdrawTally t y).small = c.small ∧
    (c.withdrawTally t y).large = c.large ∧ (c.withdrawTally t y).notice = c.notice ∧
    (c.withdrawTally t y).payloadWrites = c.payloadWrites ∧
    (c.withdrawTally t y).handlesTaken = c.handlesTaken := by
  unfold withdrawTally
  repeat' split
  all_goals simp

/-- What `orphan` leaves unchanged. -/
@[simp] theorem Chip.orphan_frame (c : Chip) (i : Nat) (reason : OrphanReason) :
    (c.orphan i reason).inReset = c.inReset ∧ (c.orphan i reason).self = c.self ∧ (c.orphan i reason).now = c.now ∧
    (c.orphan i reason).freeIndex = c.freeIndex ∧ (c.orphan i reason).cmd = c.cmd ∧ (c.orphan i reason).fold = c.fold ∧
    (c.orphan i reason).intake = c.intake ∧ (c.orphan i reason).link.state = c.link.state ∧
    (c.orphan i reason).link.settle = c.link.settle ∧ (c.orphan i reason).link.hold = c.link.hold ∧
    (c.orphan i reason).link.nextPoint = c.link.nextPoint ∧ (c.orphan i reason).link.lastPoint = c.link.lastPoint ∧
    (c.orphan i reason).link.beaconCount = c.link.beaconCount ∧ (c.orphan i reason).link.mediumIdle = c.link.mediumIdle ∧
    (c.orphan i reason).link.receiver = c.link.receiver ∧ (c.orphan i reason).link.presence = c.link.presence ∧
    (c.orphan i reason).link.strike = c.link.strike ∧ (c.orphan i reason).nextSeq = c.nextSeq ∧
    (c.orphan i reason).verdicts = c.verdicts ∧ (c.orphan i reason).notice.latches = c.notice.latches ∧
    (c.orphan i reason).notice.writing = c.notice.writing ∧ (c.orphan i reason).notice.poll = c.notice.poll ∧
    (c.orphan i reason).notice.pn = c.notice.pn ∧ (c.orphan i reason).notice.cn = c.notice.cn ∧
    (c.orphan i reason).payloadWrites = c.payloadWrites ∧
    (c.orphan i reason).handlesTaken = c.handlesTaken := by
  unfold orphan
  split
  · simp
  · split
    · simp only []
      split <;> simp
    · simp

/-- What `provisionalToEntry` leaves unchanged. -/
@[simp] theorem Chip.provisionalToEntry_frame (i : Nat) (c : Chip) (b : BlockItem) :
    (provisionalToEntry i c b).inReset = c.inReset ∧ (provisionalToEntry i c b).self = c.self ∧
    (provisionalToEntry i c b).now = c.now ∧ (provisionalToEntry i c b).freeIndex = c.freeIndex ∧
    (provisionalToEntry i c b).cmd = c.cmd ∧ (provisionalToEntry i c b).fold = c.fold ∧
    (provisionalToEntry i c b).intake = c.intake ∧ (provisionalToEntry i c b).link = c.link ∧
    (provisionalToEntry i c b).cache = c.cache ∧ (provisionalToEntry i c b).retired = c.retired ∧
    (provisionalToEntry i c b).nextSeq = c.nextSeq ∧ (provisionalToEntry i c b).pair = c.pair ∧
    (provisionalToEntry i c b).verdicts = c.verdicts ∧ (provisionalToEntry i c b).notice.queue = c.notice.queue ∧
    (provisionalToEntry i c b).notice.re = c.notice.re ∧ (provisionalToEntry i c b).notice.latches = c.notice.latches ∧
    (provisionalToEntry i c b).notice.writing = c.notice.writing ∧ (provisionalToEntry i c b).notice.poll = c.notice.poll ∧
    (provisionalToEntry i c b).notice.pn = c.notice.pn ∧ (provisionalToEntry i c b).notice.cn = c.notice.cn ∧
    (provisionalToEntry i c b).payloadWrites = c.payloadWrites ∧
    (provisionalToEntry i c b).handlesTaken = c.handlesTaken := by
  unfold provisionalToEntry
  repeat' split
  all_goals simp

/-- What `provisionalToEntries` leaves unchanged. -/
@[simp] theorem Chip.provisionalToEntries_frame (i : Nat) (l : List BlockItem) (c : Chip) :
    (l.foldl (provisionalToEntry i) c).inReset = c.inReset ∧ (l.foldl (provisionalToEntry i) c).self = c.self ∧
    (l.foldl (provisionalToEntry i) c).now = c.now ∧ (l.foldl (provisionalToEntry i) c).freeIndex = c.freeIndex ∧
    (l.foldl (provisionalToEntry i) c).cmd = c.cmd ∧ (l.foldl (provisionalToEntry i) c).fold = c.fold ∧
    (l.foldl (provisionalToEntry i) c).intake = c.intake ∧ (l.foldl (provisionalToEntry i) c).link = c.link ∧
    (l.foldl (provisionalToEntry i) c).cache = c.cache ∧ (l.foldl (provisionalToEntry i) c).retired = c.retired ∧
    (l.foldl (provisionalToEntry i) c).nextSeq = c.nextSeq ∧ (l.foldl (provisionalToEntry i) c).pair = c.pair ∧
    (l.foldl (provisionalToEntry i) c).verdicts = c.verdicts ∧
    (l.foldl (provisionalToEntry i) c).notice.queue = c.notice.queue ∧
    (l.foldl (provisionalToEntry i) c).notice.re = c.notice.re ∧
    (l.foldl (provisionalToEntry i) c).notice.latches = c.notice.latches ∧
    (l.foldl (provisionalToEntry i) c).notice.writing = c.notice.writing ∧
    (l.foldl (provisionalToEntry i) c).notice.poll = c.notice.poll ∧
    (l.foldl (provisionalToEntry i) c).notice.pn = c.notice.pn ∧
    (l.foldl (provisionalToEntry i) c).notice.cn = c.notice.cn ∧
    (l.foldl (provisionalToEntry i) c).payloadWrites = c.payloadWrites ∧
    (l.foldl (provisionalToEntry i) c).handlesTaken = c.handlesTaken := by
  induction l generalizing c with
  | nil => simp
  | cons b l ih => have h := ih (provisionalToEntry i c b); simpa using h

/-- What `closeToEntry` leaves unchanged. -/
@[simp] theorem Chip.closeToEntry_frame (i : Nat) (c : Chip) (r : CloseRec) :
    (closeToEntry i c r).inReset = c.inReset ∧ (closeToEntry i c r).self = c.self ∧ (closeToEntry i c r).now = c.now ∧
    (closeToEntry i c r).freeIndex = c.freeIndex ∧ (closeToEntry i c r).cmd = c.cmd ∧ (closeToEntry i c r).fold = c.fold ∧
    (closeToEntry i c r).intake = c.intake ∧ (closeToEntry i c r).link = c.link ∧ (closeToEntry i c r).extFree = c.extFree ∧
    (closeToEntry i c r).cache = c.cache ∧ (closeToEntry i c r).retired = c.retired ∧
    (closeToEntry i c r).nextSeq = c.nextSeq ∧ (closeToEntry i c r).pair = c.pair ∧
    (closeToEntry i c r).verdicts = c.verdicts ∧ (closeToEntry i c r).small = c.small ∧
    (closeToEntry i c r).large = c.large ∧ (closeToEntry i c r).notice = c.notice ∧
    (closeToEntry i c r).payloadWrites = c.payloadWrites ∧
    (closeToEntry i c r).handlesTaken = c.handlesTaken := by
  unfold closeToEntry
  repeat' split
  all_goals simp

/-- What `toFeeding` leaves unchanged. -/
@[simp] theorem Chip.toFeeding_frame (c : Chip) (i : Nat) (x : Station) :
    (c.toFeeding i x).inReset = c.inReset ∧ (c.toFeeding i x).self = c.self ∧ (c.toFeeding i x).now = c.now ∧
    (c.toFeeding i x).freeIndex = c.freeIndex ∧ (c.toFeeding i x).cmd = c.cmd ∧ (c.toFeeding i x).fold = c.fold ∧
    (c.toFeeding i x).intake = c.intake ∧ (c.toFeeding i x).link.state = c.link.state ∧
    (c.toFeeding i x).link.settle = c.link.settle ∧ (c.toFeeding i x).link.hold = c.link.hold ∧
    (c.toFeeding i x).link.nextPoint = c.link.nextPoint ∧ (c.toFeeding i x).link.lastPoint = c.link.lastPoint ∧
    (c.toFeeding i x).link.beaconCount = c.link.beaconCount ∧ (c.toFeeding i x).link.mediumIdle = c.link.mediumIdle ∧
    (c.toFeeding i x).link.receiver = c.link.receiver ∧ (c.toFeeding i x).link.presence = c.link.presence ∧
    (c.toFeeding i x).link.strike = c.link.strike ∧ (c.toFeeding i x).nextSeq = c.nextSeq ∧
    (c.toFeeding i x).verdicts = c.verdicts ∧ (c.toFeeding i x).notice.latches = c.notice.latches ∧
    (c.toFeeding i x).notice.writing = c.notice.writing ∧ (c.toFeeding i x).notice.poll = c.notice.poll ∧
    (c.toFeeding i x).notice.pn = c.notice.pn ∧ (c.toFeeding i x).notice.cn = c.notice.cn ∧
    (c.toFeeding i x).payloadWrites = c.payloadWrites ∧
    (c.toFeeding i x).handlesTaken = c.handlesTaken := by
  unfold toFeeding
  split
  · simp
  · split
    · simp
    · simp only []
      split <;> split <;> simp

/-- What `takeEntries` leaves unchanged. -/
@[simp] theorem Chip.takeEntries_frame (i : Nat) (es : List Entry) (n : Nat) (c : Chip) :
    (takeEntries i es n c).inReset = c.inReset ∧ (takeEntries i es n c).self = c.self ∧ (takeEntries i es n c).now = c.now ∧
    (takeEntries i es n c).freeIndex = c.freeIndex ∧ (takeEntries i es n c).cmd.mode = c.cmd.mode ∧
    (takeEntries i es n c).cmd.staging = c.cmd.staging ∧ (takeEntries i es n c).cmd.setup = c.cmd.setup ∧
    (takeEntries i es n c).cmd.memory = c.cmd.memory ∧ (takeEntries i es n c).cmd.restartNumber = c.cmd.restartNumber ∧
    (takeEntries i es n c).cmd.faultAtEnd = c.cmd.faultAtEnd ∧ (takeEntries i es n c).cmd.faultPin = c.cmd.faultPin ∧
    (takeEntries i es n c).fold = c.fold ∧ (takeEntries i es n c).intake = c.intake ∧
    (takeEntries i es n c).link.state = c.link.state ∧ (takeEntries i es n c).link.settle = c.link.settle ∧
    (takeEntries i es n c).link.hold = c.link.hold ∧ (takeEntries i es n c).link.nextPoint = c.link.nextPoint ∧
    (takeEntries i es n c).link.lastPoint = c.link.lastPoint ∧
    (takeEntries i es n c).link.beaconCount = c.link.beaconCount ∧
    (takeEntries i es n c).link.mediumIdle = c.link.mediumIdle ∧ (takeEntries i es n c).link.receiver = c.link.receiver ∧
    (takeEntries i es n c).link.presence = c.link.presence ∧ (takeEntries i es n c).link.strike = c.link.strike ∧
    (takeEntries i es n c).pendFree = c.pendFree ∧ (takeEntries i es n c).nextSeq = c.nextSeq ∧
    (takeEntries i es n c).pair = c.pair ∧ (takeEntries i es n c).verdicts = c.verdicts ∧
    (takeEntries i es n c).notice.latches = c.notice.latches ∧ (takeEntries i es n c).notice.writing = c.notice.writing ∧
    (takeEntries i es n c).notice.poll = c.notice.poll ∧ (takeEntries i es n c).notice.pn = c.notice.pn ∧
    (takeEntries i es n c).notice.cn = c.notice.cn ∧ (takeEntries i es n c).payloadWrites = c.payloadWrites ∧
    (takeEntries i es n c).handlesTaken = c.handlesTaken := by
  induction es generalizing n c with
  | nil => simp [takeEntries]
  | cons e es ih =>
    unfold takeEntries
    split
    · split <;> simp [ih]
    · split
      · split
        · simp [ih]
        · split
          · simp [ih]
          · split
            · simp [ih]
            · split <;> simp [ih]
      · dsimp only
        split <;> simp [ih]

/-- What `toClaiming` leaves unchanged. -/
@[simp] theorem Chip.toClaiming_frame (c : Chip) (i : Nat) :
    (c.toClaiming i).inReset = c.inReset ∧ (c.toClaiming i).self = c.self ∧ (c.toClaiming i).now = c.now ∧
    (c.toClaiming i).freeIndex = c.freeIndex ∧ (c.toClaiming i).cmd.mode = c.cmd.mode ∧
    (c.toClaiming i).cmd.staging = c.cmd.staging ∧ (c.toClaiming i).cmd.setup = c.cmd.setup ∧
    (c.toClaiming i).cmd.memory = c.cmd.memory ∧ (c.toClaiming i).cmd.restartNumber = c.cmd.restartNumber ∧
    (c.toClaiming i).cmd.faultAtEnd = c.cmd.faultAtEnd ∧ (c.toClaiming i).cmd.faultPin = c.cmd.faultPin ∧
    (c.toClaiming i).fold = c.fold ∧ (c.toClaiming i).intake = c.intake ∧ (c.toClaiming i).link.state = c.link.state ∧
    (c.toClaiming i).link.settle = c.link.settle ∧ (c.toClaiming i).link.hold = c.link.hold ∧
    (c.toClaiming i).link.nextPoint = c.link.nextPoint ∧ (c.toClaiming i).link.lastPoint = c.link.lastPoint ∧
    (c.toClaiming i).link.beaconCount = c.link.beaconCount ∧ (c.toClaiming i).link.mediumIdle = c.link.mediumIdle ∧
    (c.toClaiming i).link.receiver = c.link.receiver ∧ (c.toClaiming i).link.presence = c.link.presence ∧
    (c.toClaiming i).link.strike = c.link.strike ∧ (c.toClaiming i).nextSeq = c.nextSeq ∧
    (c.toClaiming i).verdicts = c.verdicts ∧ (c.toClaiming i).notice.latches = c.notice.latches ∧
    (c.toClaiming i).notice.writing = c.notice.writing ∧ (c.toClaiming i).notice.poll = c.notice.poll ∧
    (c.toClaiming i).notice.pn = c.notice.pn ∧ (c.toClaiming i).notice.cn = c.notice.cn ∧
    (c.toClaiming i).payloadWrites = c.payloadWrites ∧
    (c.toClaiming i).handlesTaken = c.handlesTaken := by
  unfold toClaiming
  split
  · simp
  · simp only []
    split <;> split <;> simp

/-- What `orphans` leaves unchanged. -/
@[simp] theorem Chip.orphans_frame (reason : OrphanReason) (l : List Nat) (c : Chip) :
    (l.foldl (fun c i => c.orphan i reason) c).inReset = c.inReset ∧
    (l.foldl (fun c i => c.orphan i reason) c).self = c.self ∧ (l.foldl (fun c i => c.orphan i reason) c).now = c.now ∧
    (l.foldl (fun c i => c.orphan i reason) c).freeIndex = c.freeIndex ∧
    (l.foldl (fun c i => c.orphan i reason) c).cmd = c.cmd ∧ (l.foldl (fun c i => c.orphan i reason) c).fold = c.fold ∧
    (l.foldl (fun c i => c.orphan i reason) c).intake = c.intake ∧
    (l.foldl (fun c i => c.orphan i reason) c).link.state = c.link.state ∧
    (l.foldl (fun c i => c.orphan i reason) c).link.settle = c.link.settle ∧
    (l.foldl (fun c i => c.orphan i reason) c).link.hold = c.link.hold ∧
    (l.foldl (fun c i => c.orphan i reason) c).link.nextPoint = c.link.nextPoint ∧
    (l.foldl (fun c i => c.orphan i reason) c).link.lastPoint = c.link.lastPoint ∧
    (l.foldl (fun c i => c.orphan i reason) c).link.beaconCount = c.link.beaconCount ∧
    (l.foldl (fun c i => c.orphan i reason) c).link.mediumIdle = c.link.mediumIdle ∧
    (l.foldl (fun c i => c.orphan i reason) c).link.receiver = c.link.receiver ∧
    (l.foldl (fun c i => c.orphan i reason) c).link.presence = c.link.presence ∧
    (l.foldl (fun c i => c.orphan i reason) c).link.strike = c.link.strike ∧
    (l.foldl (fun c i => c.orphan i reason) c).nextSeq = c.nextSeq ∧
    (l.foldl (fun c i => c.orphan i reason) c).verdicts = c.verdicts ∧
    (l.foldl (fun c i => c.orphan i reason) c).notice.latches = c.notice.latches ∧
    (l.foldl (fun c i => c.orphan i reason) c).notice.writing = c.notice.writing ∧
    (l.foldl (fun c i => c.orphan i reason) c).notice.poll = c.notice.poll ∧
    (l.foldl (fun c i => c.orphan i reason) c).notice.pn = c.notice.pn ∧
    (l.foldl (fun c i => c.orphan i reason) c).notice.cn = c.notice.cn ∧
    (l.foldl (fun c i => c.orphan i reason) c).payloadWrites = c.payloadWrites ∧
    (l.foldl (fun c i => c.orphan i reason) c).handlesTaken = c.handlesTaken := by
  induction l generalizing c with
  | nil => simp
  | cons b l ih => have h := ih (c.orphan b reason); simpa using h

/-- What `enterFaulted` leaves unchanged. -/
@[simp] theorem Chip.enterFaulted_frame (c : Chip) :
    (c.enterFaulted).inReset = c.inReset ∧ (c.enterFaulted).self = c.self ∧ (c.enterFaulted).now = c.now ∧
    (c.enterFaulted).freeIndex = c.freeIndex ∧ (c.enterFaulted).cmd.staging = c.cmd.staging ∧
    (c.enterFaulted).cmd.setup = c.cmd.setup ∧ (c.enterFaulted).cmd.memory = c.cmd.memory ∧
    (c.enterFaulted).cmd.counters = c.cmd.counters ∧ (c.enterFaulted).cmd.restartNumber = c.cmd.restartNumber ∧
    (c.enterFaulted).fold = c.fold ∧ (c.enterFaulted).intake = c.intake ∧ (c.enterFaulted).link.state = c.link.state ∧
    (c.enterFaulted).link.settle = c.link.settle ∧ (c.enterFaulted).link.hold = c.link.hold ∧
    (c.enterFaulted).link.nextPoint = c.link.nextPoint ∧ (c.enterFaulted).link.lastPoint = c.link.lastPoint ∧
    (c.enterFaulted).link.beaconCount = c.link.beaconCount ∧ (c.enterFaulted).link.mediumIdle = c.link.mediumIdle ∧
    (c.enterFaulted).link.receiver = c.link.receiver ∧ (c.enterFaulted).link.presence = c.link.presence ∧
    (c.enterFaulted).link.strike = c.link.strike ∧ (c.enterFaulted).nextSeq = c.nextSeq ∧
    (c.enterFaulted).verdicts = c.verdicts ∧ (c.enterFaulted).notice.writing = c.notice.writing ∧
    (c.enterFaulted).notice.poll = c.notice.poll ∧ (c.enterFaulted).notice.pn = c.notice.pn ∧
    (c.enterFaulted).notice.cn = c.notice.cn ∧ (c.enterFaulted).payloadWrites = c.payloadWrites ∧
    (c.enterFaulted).handlesTaken = c.handlesTaken := by
  simp [enterFaulted]

end Sys2Proof.Machine
end

