-- ==== Sys2Proof/Laws/IntakeFrames.lean ====
section
/-! SUPPORT. The frame of each operation of the segment intake. -/

namespace Sys2Proof.Machine

open Chip

/-- What `holdSegment` leaves unchanged. -/
@[simp] theorem Chip.holdSegment_frame (c : Chip) (st : IntakeState) (g : Segment) :
    (c.holdSegment st g).inReset = c.inReset ∧ (c.holdSegment st g).self = c.self ∧ (c.holdSegment st g).now = c.now ∧
    (c.holdSegment st g).freeIndex = c.freeIndex ∧ (c.holdSegment st g).cmd = c.cmd ∧ (c.holdSegment st g).fold = c.fold ∧
    (c.holdSegment st g).link = c.link ∧ (c.holdSegment st g).slots = c.slots ∧ (c.holdSegment st g).extFree = c.extFree ∧
    (c.holdSegment st g).pendFree = c.pendFree ∧ (c.holdSegment st g).cache = c.cache ∧
    (c.holdSegment st g).retired = c.retired ∧ (c.holdSegment st g).nextSeq = c.nextSeq ∧
    (c.holdSegment st g).pair = c.pair ∧ (c.holdSegment st g).verdicts = c.verdicts ∧ (c.holdSegment st g).small = c.small ∧
    (c.holdSegment st g).large = c.large ∧ (c.holdSegment st g).notice = c.notice ∧
    (c.holdSegment st g).payloadWrites = c.payloadWrites ∧
    (c.holdSegment st g).handlesTaken = c.handlesTaken := by
  simp [holdSegment]

/-- What `endSegment` leaves unchanged. -/
@[simp] theorem Chip.endSegment_frame (c : Chip) (st : IntakeState) :
    (c.endSegment st).inReset = c.inReset ∧ (c.endSegment st).self = c.self ∧ (c.endSegment st).now = c.now ∧
    (c.endSegment st).freeIndex = c.freeIndex ∧ (c.endSegment st).cmd = c.cmd ∧ (c.endSegment st).fold = c.fold ∧
    (c.endSegment st).link = c.link ∧ (c.endSegment st).slots = c.slots ∧ (c.endSegment st).extFree = c.extFree ∧
    (c.endSegment st).pendFree = c.pendFree ∧ (c.endSegment st).cache = c.cache ∧ (c.endSegment st).retired = c.retired ∧
    (c.endSegment st).nextSeq = c.nextSeq ∧ (c.endSegment st).pair = c.pair ∧ (c.endSegment st).verdicts = c.verdicts ∧
    (c.endSegment st).small = c.small ∧ (c.endSegment st).large = c.large ∧ (c.endSegment st).notice = c.notice ∧
    (c.endSegment st).payloadWrites = c.payloadWrites ∧
    (c.endSegment st).handlesTaken = c.handlesTaken := by
  simp [endSegment]

/-- What `releasePools` leaves unchanged. -/
@[simp] theorem Chip.releasePools_frame (c : Chip) (g : Segment) :
    (c.releasePools g).inReset = c.inReset ∧ (c.releasePools g).self = c.self ∧ (c.releasePools g).now = c.now ∧
    (c.releasePools g).freeIndex = c.freeIndex ∧ (c.releasePools g).cmd = c.cmd ∧ (c.releasePools g).fold = c.fold ∧
    (c.releasePools g).intake = c.intake ∧ (c.releasePools g).link = c.link ∧ (c.releasePools g).slots = c.slots ∧
    (c.releasePools g).cache = c.cache ∧ (c.releasePools g).retired = c.retired ∧ (c.releasePools g).nextSeq = c.nextSeq ∧
    (c.releasePools g).pair = c.pair ∧ (c.releasePools g).verdicts = c.verdicts ∧ (c.releasePools g).small = c.small ∧
    (c.releasePools g).large = c.large ∧ (c.releasePools g).notice = c.notice ∧
    (c.releasePools g).payloadWrites = c.payloadWrites ∧
    (c.releasePools g).handlesTaken = c.handlesTaken := by
  simp only [releasePools]
  split <;> split <;> simp

/-- What `dropSegment` leaves unchanged. -/
@[simp] theorem Chip.dropSegment_frame (c : Chip) (why : DropReason) (g : Segment) (st : IntakeState) :
    (c.dropSegment why g st).inReset = c.inReset ∧ (c.dropSegment why g st).self = c.self ∧
    (c.dropSegment why g st).now = c.now ∧ (c.dropSegment why g st).freeIndex = c.freeIndex ∧
    (c.dropSegment why g st).cmd.mode = c.cmd.mode ∧ (c.dropSegment why g st).cmd.staging = c.cmd.staging ∧
    (c.dropSegment why g st).cmd.setup = c.cmd.setup ∧ (c.dropSegment why g st).cmd.memory = c.cmd.memory ∧
    (c.dropSegment why g st).cmd.restartNumber = c.cmd.restartNumber ∧
    (c.dropSegment why g st).cmd.faultAtEnd = c.cmd.faultAtEnd ∧ (c.dropSegment why g st).cmd.faultPin = c.cmd.faultPin ∧
    (c.dropSegment why g st).fold = c.fold ∧ (c.dropSegment why g st).link = c.link ∧
    (c.dropSegment why g st).slots = c.slots ∧ (c.dropSegment why g st).cache = c.cache ∧
    (c.dropSegment why g st).retired = c.retired ∧ (c.dropSegment why g st).nextSeq = c.nextSeq ∧
    (c.dropSegment why g st).pair = c.pair ∧ (c.dropSegment why g st).verdicts = c.verdicts ∧
    (c.dropSegment why g st).notice.queue = c.notice.queue ∧ (c.dropSegment why g st).notice.re = c.notice.re ∧
    (c.dropSegment why g st).notice.latches = c.notice.latches ∧
    (c.dropSegment why g st).notice.writing = c.notice.writing ∧ (c.dropSegment why g st).notice.poll = c.notice.poll ∧
    (c.dropSegment why g st).notice.pn = c.notice.pn ∧ (c.dropSegment why g st).notice.cn = c.notice.cn ∧
    (c.dropSegment why g st).payloadWrites = c.payloadWrites ∧
    (c.dropSegment why g st).handlesTaken = c.handlesTaken := by
  simp only [dropSegment]
  split <;> split <;> simp

/-- What `dropDecided` leaves unchanged. -/
@[simp] theorem Chip.dropDecided_frame (c : Chip) (why : DropReason) (g : Segment) :
    (c.dropDecided why g).inReset = c.inReset ∧ (c.dropDecided why g).self = c.self ∧ (c.dropDecided why g).now = c.now ∧
    (c.dropDecided why g).freeIndex = c.freeIndex ∧ (c.dropDecided why g).cmd.mode = c.cmd.mode ∧
    (c.dropDecided why g).cmd.staging = c.cmd.staging ∧ (c.dropDecided why g).cmd.setup = c.cmd.setup ∧
    (c.dropDecided why g).cmd.memory = c.cmd.memory ∧ (c.dropDecided why g).cmd.restartNumber = c.cmd.restartNumber ∧
    (c.dropDecided why g).cmd.faultAtEnd = c.cmd.faultAtEnd ∧ (c.dropDecided why g).cmd.faultPin = c.cmd.faultPin ∧
    (c.dropDecided why g).fold = c.fold ∧ (c.dropDecided why g).link = c.link ∧ (c.dropDecided why g).slots = c.slots ∧
    (c.dropDecided why g).cache = c.cache ∧ (c.dropDecided why g).retired = c.retired ∧
    (c.dropDecided why g).nextSeq = c.nextSeq ∧ (c.dropDecided why g).pair = c.pair ∧
    (c.dropDecided why g).verdicts = c.verdicts ∧ (c.dropDecided why g).notice.queue = c.notice.queue ∧
    (c.dropDecided why g).notice.re = c.notice.re ∧ (c.dropDecided why g).notice.latches = c.notice.latches ∧
    (c.dropDecided why g).notice.writing = c.notice.writing ∧ (c.dropDecided why g).notice.poll = c.notice.poll ∧
    (c.dropDecided why g).notice.pn = c.notice.pn ∧ (c.dropDecided why g).notice.cn = c.notice.cn ∧
    (c.dropDecided why g).payloadWrites = c.payloadWrites ∧
    (c.dropDecided why g).handlesTaken = c.handlesTaken := by
  simp [dropDecided]

/-- What `holdFor` leaves unchanged. -/
@[simp] theorem Chip.holdFor_frame (c : Chip) (r : RoomRequest) (g : Segment) :
    (c.holdFor r g).inReset = c.inReset ∧ (c.holdFor r g).self = c.self ∧ (c.holdFor r g).now = c.now ∧
    (c.holdFor r g).freeIndex = c.freeIndex ∧ (c.holdFor r g).cmd = c.cmd ∧ (c.holdFor r g).fold = c.fold ∧
    (c.holdFor r g).link = c.link ∧ (c.holdFor r g).slots = c.slots ∧ (c.holdFor r g).cache = c.cache ∧
    (c.holdFor r g).retired = c.retired ∧ (c.holdFor r g).nextSeq = c.nextSeq ∧ (c.holdFor r g).pair = c.pair ∧
    (c.holdFor r g).verdicts = c.verdicts ∧ (c.holdFor r g).small = c.small ∧ (c.holdFor r g).large = c.large ∧
    (c.holdFor r g).notice = c.notice ∧ (c.holdFor r g).payloadWrites = c.payloadWrites ∧
    (c.holdFor r g).handlesTaken = c.handlesTaken := by
  simp [holdFor]

/-- What `takeHandle` leaves unchanged. -/
theorem Chip.takeHandle_frame {c d : Chip} {cls : BufClass} {hd : Handle} (h : c.takeHandle cls = some (hd, d)) :
    (d).inReset = c.inReset ∧ (d).self = c.self ∧ (d).now = c.now ∧ (d).freeIndex = c.freeIndex ∧ (d).cmd = c.cmd ∧
    (d).fold = c.fold ∧ (d).intake = c.intake ∧ (d).link = c.link ∧ (d).slots = c.slots ∧ (d).extFree = c.extFree ∧
    (d).pendFree = c.pendFree ∧ (d).cache = c.cache ∧ (d).retired = c.retired ∧ (d).nextSeq = c.nextSeq ∧
    (d).pair = c.pair ∧ (d).verdicts = c.verdicts ∧ (d).notice = c.notice ∧ (d).payloadWrites = c.payloadWrites ∧
    (d).handlesTaken = c.handlesTaken := by
  unfold takeHandle at h
  split at h
  · simp only [Option.some.injEq, Prod.mk.injEq] at h
    obtain ⟨-, rfl⟩ := h
    split <;> simp
  · split at h
    · simp only [Option.some.injEq, Prod.mk.injEq] at h
      obtain ⟨-, rfl⟩ := h
      simp
    · simp at h

/-- What `stepBuffer` leaves unchanged. -/
@[simp] theorem Chip.stepBuffer_frame (c : Chip) (g : Segment) :
    (c.stepBuffer g).inReset = c.inReset ∧ (c.stepBuffer g).self = c.self ∧ (c.stepBuffer g).now = c.now ∧
    (c.stepBuffer g).freeIndex = c.freeIndex ∧ (c.stepBuffer g).cmd.mode = c.cmd.mode ∧
    (c.stepBuffer g).cmd.staging = c.cmd.staging ∧ (c.stepBuffer g).cmd.setup = c.cmd.setup ∧
    (c.stepBuffer g).cmd.memory = c.cmd.memory ∧ (c.stepBuffer g).cmd.restartNumber = c.cmd.restartNumber ∧
    (c.stepBuffer g).cmd.faultAtEnd = c.cmd.faultAtEnd ∧ (c.stepBuffer g).cmd.faultPin = c.cmd.faultPin ∧
    (c.stepBuffer g).link = c.link ∧ (c.stepBuffer g).slots = c.slots ∧ (c.stepBuffer g).cache = c.cache ∧
    (c.stepBuffer g).retired = c.retired ∧ (c.stepBuffer g).nextSeq = c.nextSeq ∧ (c.stepBuffer g).pair = c.pair ∧
    (c.stepBuffer g).verdicts = c.verdicts ∧ (c.stepBuffer g).notice.queue = c.notice.queue ∧
    (c.stepBuffer g).notice.re = c.notice.re ∧ (c.stepBuffer g).notice.latches = c.notice.latches ∧
    (c.stepBuffer g).notice.writing = c.notice.writing ∧ (c.stepBuffer g).notice.poll = c.notice.poll ∧
    (c.stepBuffer g).notice.pn = c.notice.pn ∧ (c.stepBuffer g).notice.cn = c.notice.cn ∧
    (c.stepBuffer g).payloadWrites = c.payloadWrites ∧
    (c.stepBuffer g).handlesTaken = c.handlesTaken := by
  simp only [stepBuffer]
  split
  · simp
  · rename_i hd d hh
    have hf := takeHandle_frame hh
    simp [hf]

/-- What `stepReserve` leaves unchanged. -/
@[simp] theorem Chip.stepReserve_frame (c : Chip) (cover : List Extent) (feeds : Bool) (g : Segment) :
    (c.stepReserve cover feeds g).inReset = c.inReset ∧ (c.stepReserve cover feeds g).self = c.self ∧
    (c.stepReserve cover feeds g).now = c.now ∧ (c.stepReserve cover feeds g).freeIndex = c.freeIndex ∧
    (c.stepReserve cover feeds g).cmd.mode = c.cmd.mode ∧ (c.stepReserve cover feeds g).cmd.staging = c.cmd.staging ∧
    (c.stepReserve cover feeds g).cmd.setup = c.cmd.setup ∧ (c.stepReserve cover feeds g).cmd.memory = c.cmd.memory ∧
    (c.stepReserve cover feeds g).cmd.restartNumber = c.cmd.restartNumber ∧
    (c.stepReserve cover feeds g).cmd.faultAtEnd = c.cmd.faultAtEnd ∧
    (c.stepReserve cover feeds g).cmd.faultPin = c.cmd.faultPin ∧ (c.stepReserve cover feeds g).link = c.link ∧
    (c.stepReserve cover feeds g).slots = c.slots ∧ (c.stepReserve cover feeds g).cache = c.cache ∧
    (c.stepReserve cover feeds g).retired = c.retired ∧ (c.stepReserve cover feeds g).nextSeq = c.nextSeq ∧
    (c.stepReserve cover feeds g).pair = c.pair ∧ (c.stepReserve cover feeds g).verdicts = c.verdicts ∧
    (c.stepReserve cover feeds g).notice.queue = c.notice.queue ∧ (c.stepReserve cover feeds g).notice.re = c.notice.re ∧
    (c.stepReserve cover feeds g).notice.latches = c.notice.latches ∧
    (c.stepReserve cover feeds g).notice.writing = c.notice.writing ∧
    (c.stepReserve cover feeds g).notice.poll = c.notice.poll ∧ (c.stepReserve cover feeds g).notice.pn = c.notice.pn ∧
    (c.stepReserve cover feeds g).notice.cn = c.notice.cn ∧
    (c.stepReserve cover feeds g).payloadWrites = c.payloadWrites ∧
    (c.stepReserve cover feeds g).handlesTaken = c.handlesTaken := by
  unfold stepReserve
  split
  · simp
  · cases feeds <;> dsimp only <;> repeat' split
    all_goals simp

/-- What `stepData` leaves unchanged. -/
@[simp] theorem Chip.stepData_frame (c : Chip) (i : Nat) (g : Segment) :
    (c.stepData i g).inReset = c.inReset ∧ (c.stepData i g).self = c.self ∧ (c.stepData i g).now = c.now ∧
    (c.stepData i g).freeIndex = c.freeIndex ∧ (c.stepData i g).cmd.mode = c.cmd.mode ∧
    (c.stepData i g).cmd.staging = c.cmd.staging ∧ (c.stepData i g).cmd.setup = c.cmd.setup ∧
    (c.stepData i g).cmd.memory = c.cmd.memory ∧ (c.stepData i g).cmd.restartNumber = c.cmd.restartNumber ∧
    (c.stepData i g).cmd.faultAtEnd = c.cmd.faultAtEnd ∧ (c.stepData i g).cmd.faultPin = c.cmd.faultPin ∧
    (c.stepData i g).link.state = c.link.state ∧ (c.stepData i g).link.settle = c.link.settle ∧
    (c.stepData i g).link.hold = c.link.hold ∧ (c.stepData i g).link.nextPoint = c.link.nextPoint ∧
    (c.stepData i g).link.lastPoint = c.link.lastPoint ∧ (c.stepData i g).link.beaconCount = c.link.beaconCount ∧
    (c.stepData i g).link.mediumIdle = c.link.mediumIdle ∧ (c.stepData i g).link.receiver = c.link.receiver ∧
    (c.stepData i g).link.presence = c.link.presence ∧ (c.stepData i g).link.strike = c.link.strike ∧
    (c.stepData i g).nextSeq = c.nextSeq ∧ (c.stepData i g).pair = c.pair ∧ (c.stepData i g).verdicts = c.verdicts ∧
    (c.stepData i g).notice.latches = c.notice.latches ∧ (c.stepData i g).notice.writing = c.notice.writing ∧
    (c.stepData i g).notice.poll = c.notice.poll ∧ (c.stepData i g).notice.pn = c.notice.pn ∧
    (c.stepData i g).notice.cn = c.notice.cn ∧ (c.stepData i g).payloadWrites = c.payloadWrites ∧
    (c.stepData i g).handlesTaken = c.handlesTaken := by
  unfold stepData
  repeat' split
  all_goals simp

/-- What `stepClose` leaves unchanged. -/
@[simp] theorem Chip.stepClose_frame (c : Chip) (i : Nat) (g : Segment) :
    (c.stepClose i g).inReset = c.inReset ∧ (c.stepClose i g).self = c.self ∧ (c.stepClose i g).now = c.now ∧
    (c.stepClose i g).freeIndex = c.freeIndex ∧ (c.stepClose i g).cmd.mode = c.cmd.mode ∧
    (c.stepClose i g).cmd.staging = c.cmd.staging ∧ (c.stepClose i g).cmd.setup = c.cmd.setup ∧
    (c.stepClose i g).cmd.memory = c.cmd.memory ∧ (c.stepClose i g).cmd.restartNumber = c.cmd.restartNumber ∧
    (c.stepClose i g).cmd.faultAtEnd = c.cmd.faultAtEnd ∧ (c.stepClose i g).cmd.faultPin = c.cmd.faultPin ∧
    (c.stepClose i g).link.state = c.link.state ∧ (c.stepClose i g).link.settle = c.link.settle ∧
    (c.stepClose i g).link.hold = c.link.hold ∧ (c.stepClose i g).link.nextPoint = c.link.nextPoint ∧
    (c.stepClose i g).link.lastPoint = c.link.lastPoint ∧ (c.stepClose i g).link.beaconCount = c.link.beaconCount ∧
    (c.stepClose i g).link.mediumIdle = c.link.mediumIdle ∧ (c.stepClose i g).link.receiver = c.link.receiver ∧
    (c.stepClose i g).link.presence = c.link.presence ∧ (c.stepClose i g).link.strike = c.link.strike ∧
    (c.stepClose i g).nextSeq = c.nextSeq ∧ (c.stepClose i g).pair = c.pair ∧ (c.stepClose i g).verdicts = c.verdicts ∧
    (c.stepClose i g).notice.latches = c.notice.latches ∧ (c.stepClose i g).notice.writing = c.notice.writing ∧
    (c.stepClose i g).notice.poll = c.notice.poll ∧ (c.stepClose i g).notice.pn = c.notice.pn ∧
    (c.stepClose i g).notice.cn = c.notice.cn ∧ (c.stepClose i g).payloadWrites = c.payloadWrites ∧
    (c.stepClose i g).handlesTaken = c.handlesTaken := by
  unfold stepClose
  split
  · simp
  · split
    · dsimp only
      split <;> simp
    · split
      · simp
      · split <;> simp

/-- What `stepContext` leaves unchanged. -/
@[simp] theorem Chip.stepContext_frame (c : Chip) (i : Nat) (g : Segment) :
    (c.stepContext i g).inReset = c.inReset ∧ (c.stepContext i g).self = c.self ∧ (c.stepContext i g).now = c.now ∧
    (c.stepContext i g).freeIndex = c.freeIndex ∧ (c.stepContext i g).cmd.mode = c.cmd.mode ∧
    (c.stepContext i g).cmd.staging = c.cmd.staging ∧ (c.stepContext i g).cmd.setup = c.cmd.setup ∧
    (c.stepContext i g).cmd.memory = c.cmd.memory ∧ (c.stepContext i g).cmd.restartNumber = c.cmd.restartNumber ∧
    (c.stepContext i g).cmd.faultAtEnd = c.cmd.faultAtEnd ∧ (c.stepContext i g).cmd.faultPin = c.cmd.faultPin ∧
    (c.stepContext i g).link.state = c.link.state ∧ (c.stepContext i g).link.settle = c.link.settle ∧
    (c.stepContext i g).link.hold = c.link.hold ∧ (c.stepContext i g).link.nextPoint = c.link.nextPoint ∧
    (c.stepContext i g).link.lastPoint = c.link.lastPoint ∧ (c.stepContext i g).link.beaconCount = c.link.beaconCount ∧
    (c.stepContext i g).link.mediumIdle = c.link.mediumIdle ∧ (c.stepContext i g).link.receiver = c.link.receiver ∧
    (c.stepContext i g).link.presence = c.link.presence ∧ (c.stepContext i g).link.strike = c.link.strike ∧
    (c.stepContext i g).nextSeq = c.nextSeq ∧ (c.stepContext i g).pair = c.pair ∧
    (c.stepContext i g).verdicts = c.verdicts ∧ (c.stepContext i g).notice.latches = c.notice.latches ∧
    (c.stepContext i g).notice.writing = c.notice.writing ∧ (c.stepContext i g).notice.poll = c.notice.poll ∧
    (c.stepContext i g).notice.pn = c.notice.pn ∧ (c.stepContext i g).notice.cn = c.notice.cn ∧
    (c.stepContext i g).payloadWrites = c.payloadWrites ∧
    (c.stepContext i g).handlesTaken = c.handlesTaken := by
  unfold stepContext
  repeat' split
  all_goals simp

/-- What `stepCreate` leaves unchanged. -/
@[simp] theorem Chip.stepCreate_frame (c : Chip) (role : Role) (g : Segment) :
    (c.stepCreate role g).inReset = c.inReset ∧ (c.stepCreate role g).self = c.self ∧ (c.stepCreate role g).now = c.now ∧
    (c.stepCreate role g).freeIndex = c.freeIndex ∧ (c.stepCreate role g).cmd.mode = c.cmd.mode ∧
    (c.stepCreate role g).cmd.staging = c.cmd.staging ∧ (c.stepCreate role g).cmd.setup = c.cmd.setup ∧
    (c.stepCreate role g).cmd.memory = c.cmd.memory ∧ (c.stepCreate role g).cmd.restartNumber = c.cmd.restartNumber ∧
    (c.stepCreate role g).cmd.faultAtEnd = c.cmd.faultAtEnd ∧ (c.stepCreate role g).cmd.faultPin = c.cmd.faultPin ∧
    (c.stepCreate role g).link.state = c.link.state ∧ (c.stepCreate role g).link.settle = c.link.settle ∧
    (c.stepCreate role g).link.hold = c.link.hold ∧ (c.stepCreate role g).link.nextPoint = c.link.nextPoint ∧
    (c.stepCreate role g).link.lastPoint = c.link.lastPoint ∧ (c.stepCreate role g).link.beaconCount = c.link.beaconCount ∧
    (c.stepCreate role g).link.mediumIdle = c.link.mediumIdle ∧ (c.stepCreate role g).link.receiver = c.link.receiver ∧
    (c.stepCreate role g).link.presence = c.link.presence ∧ (c.stepCreate role g).link.strike = c.link.strike ∧
    (c.stepCreate role g).nextSeq = c.nextSeq ∧ (c.stepCreate role g).pair = c.pair ∧
    (c.stepCreate role g).verdicts = c.verdicts ∧ (c.stepCreate role g).notice.latches = c.notice.latches ∧
    (c.stepCreate role g).notice.writing = c.notice.writing ∧ (c.stepCreate role g).notice.poll = c.notice.poll ∧
    (c.stepCreate role g).notice.pn = c.notice.pn ∧ (c.stepCreate role g).notice.cn = c.notice.cn ∧
    (c.stepCreate role g).payloadWrites = c.payloadWrites ∧
    (c.stepCreate role g).handlesTaken = c.handlesTaken := by
  unfold stepCreate
  split
  · simp
  · split <;> simp

/-- What `stepRole` leaves unchanged. -/
@[simp] theorem Chip.stepRole_frame (c : Chip) (g : Segment) :
    (c.stepRole g).inReset = c.inReset ∧ (c.stepRole g).self = c.self ∧ (c.stepRole g).now = c.now ∧
    (c.stepRole g).freeIndex = c.freeIndex ∧ (c.stepRole g).cmd.mode = c.cmd.mode ∧
    (c.stepRole g).cmd.staging = c.cmd.staging ∧ (c.stepRole g).cmd.setup = c.cmd.setup ∧
    (c.stepRole g).cmd.memory = c.cmd.memory ∧ (c.stepRole g).cmd.restartNumber = c.cmd.restartNumber ∧
    (c.stepRole g).cmd.faultAtEnd = c.cmd.faultAtEnd ∧ (c.stepRole g).cmd.faultPin = c.cmd.faultPin ∧
    (c.stepRole g).link.state = c.link.state ∧ (c.stepRole g).link.settle = c.link.settle ∧
    (c.stepRole g).link.hold = c.link.hold ∧ (c.stepRole g).link.nextPoint = c.link.nextPoint ∧
    (c.stepRole g).link.lastPoint = c.link.lastPoint ∧ (c.stepRole g).link.beaconCount = c.link.beaconCount ∧
    (c.stepRole g).link.mediumIdle = c.link.mediumIdle ∧ (c.stepRole g).link.receiver = c.link.receiver ∧
    (c.stepRole g).link.presence = c.link.presence ∧ (c.stepRole g).link.strike = c.link.strike ∧
    (c.stepRole g).nextSeq = c.nextSeq ∧ (c.stepRole g).pair = c.pair ∧ (c.stepRole g).verdicts = c.verdicts ∧
    (c.stepRole g).notice.latches = c.notice.latches ∧ (c.stepRole g).notice.writing = c.notice.writing ∧
    (c.stepRole g).notice.poll = c.notice.poll ∧ (c.stepRole g).notice.pn = c.notice.pn ∧
    (c.stepRole g).notice.cn = c.notice.cn ∧ (c.stepRole g).payloadWrites = c.payloadWrites ∧
    (c.stepRole g).handlesTaken = c.handlesTaken := by
  unfold stepRole
  repeat' split
  all_goals simp

/-- What `stepLookup` leaves unchanged. -/
@[simp] theorem Chip.stepLookup_frame (c : Chip) (g : Segment) :
    (c.stepLookup g).inReset = c.inReset ∧ (c.stepLookup g).self = c.self ∧ (c.stepLookup g).now = c.now ∧
    (c.stepLookup g).freeIndex = c.freeIndex ∧ (c.stepLookup g).cmd.mode = c.cmd.mode ∧
    (c.stepLookup g).cmd.staging = c.cmd.staging ∧ (c.stepLookup g).cmd.setup = c.cmd.setup ∧
    (c.stepLookup g).cmd.memory = c.cmd.memory ∧ (c.stepLookup g).cmd.restartNumber = c.cmd.restartNumber ∧
    (c.stepLookup g).cmd.faultAtEnd = c.cmd.faultAtEnd ∧ (c.stepLookup g).cmd.faultPin = c.cmd.faultPin ∧
    (c.stepLookup g).link.state = c.link.state ∧ (c.stepLookup g).link.settle = c.link.settle ∧
    (c.stepLookup g).link.hold = c.link.hold ∧ (c.stepLookup g).link.nextPoint = c.link.nextPoint ∧
    (c.stepLookup g).link.lastPoint = c.link.lastPoint ∧ (c.stepLookup g).link.beaconCount = c.link.beaconCount ∧
    (c.stepLookup g).link.mediumIdle = c.link.mediumIdle ∧ (c.stepLookup g).link.receiver = c.link.receiver ∧
    (c.stepLookup g).link.presence = c.link.presence ∧ (c.stepLookup g).link.strike = c.link.strike ∧
    (c.stepLookup g).nextSeq = c.nextSeq ∧ (c.stepLookup g).pair = c.pair ∧ (c.stepLookup g).verdicts = c.verdicts ∧
    (c.stepLookup g).notice.latches = c.notice.latches ∧ (c.stepLookup g).notice.writing = c.notice.writing ∧
    (c.stepLookup g).notice.poll = c.notice.poll ∧ (c.stepLookup g).notice.pn = c.notice.pn ∧
    (c.stepLookup g).notice.cn = c.notice.cn ∧ (c.stepLookup g).payloadWrites = c.payloadWrites ∧
    (c.stepLookup g).handlesTaken = c.handlesTaken := by
  unfold stepLookup
  repeat' split
  all_goals simp

/-- What `takeHeaderByte` leaves unchanged. -/
@[simp] theorem Chip.takeHeaderByte_frame (c : Chip) (b : Byte) :
    (c.takeHeaderByte b).inReset = c.inReset ∧ (c.takeHeaderByte b).self = c.self ∧ (c.takeHeaderByte b).now = c.now ∧
    (c.takeHeaderByte b).freeIndex = c.freeIndex ∧ (c.takeHeaderByte b).cmd = c.cmd ∧ (c.takeHeaderByte b).fold = c.fold ∧
    (c.takeHeaderByte b).link = c.link ∧ (c.takeHeaderByte b).slots = c.slots ∧ (c.takeHeaderByte b).extFree = c.extFree ∧
    (c.takeHeaderByte b).pendFree = c.pendFree ∧ (c.takeHeaderByte b).cache = c.cache ∧
    (c.takeHeaderByte b).retired = c.retired ∧ (c.takeHeaderByte b).nextSeq = c.nextSeq ∧
    (c.takeHeaderByte b).pair = c.pair ∧ (c.takeHeaderByte b).verdicts = c.verdicts ∧ (c.takeHeaderByte b).small = c.small ∧
    (c.takeHeaderByte b).large = c.large ∧ (c.takeHeaderByte b).notice = c.notice ∧
    (c.takeHeaderByte b).payloadWrites = c.payloadWrites ∧
    (c.takeHeaderByte b).handlesTaken = c.handlesTaken := by
  unfold takeHeaderByte
  repeat' split
  all_goals simp

/-- What `judgeHeader` leaves unchanged. -/
@[simp] theorem Chip.judgeHeader_frame (c : Chip) (l : List Byte) :
    (c.judgeHeader l).inReset = c.inReset ∧ (c.judgeHeader l).self = c.self ∧ (c.judgeHeader l).now = c.now ∧
    (c.judgeHeader l).freeIndex = c.freeIndex ∧ (c.judgeHeader l).cmd.mode = c.cmd.mode ∧
    (c.judgeHeader l).cmd.staging = c.cmd.staging ∧ (c.judgeHeader l).cmd.setup = c.cmd.setup ∧
    (c.judgeHeader l).cmd.memory = c.cmd.memory ∧ (c.judgeHeader l).cmd.restartNumber = c.cmd.restartNumber ∧
    (c.judgeHeader l).cmd.faultAtEnd = c.cmd.faultAtEnd ∧ (c.judgeHeader l).cmd.faultPin = c.cmd.faultPin ∧
    (c.judgeHeader l).link.state = c.link.state ∧ (c.judgeHeader l).link.settle = c.link.settle ∧
    (c.judgeHeader l).link.hold = c.link.hold ∧ (c.judgeHeader l).link.nextPoint = c.link.nextPoint ∧
    (c.judgeHeader l).link.lastPoint = c.link.lastPoint ∧ (c.judgeHeader l).link.beaconCount = c.link.beaconCount ∧
    (c.judgeHeader l).link.mediumIdle = c.link.mediumIdle ∧ (c.judgeHeader l).link.receiver = c.link.receiver ∧
    (c.judgeHeader l).link.presence = c.link.presence ∧ (c.judgeHeader l).link.strike = c.link.strike ∧
    (c.judgeHeader l).verdicts = c.verdicts ∧ (c.judgeHeader l).notice.writing = c.notice.writing ∧
    (c.judgeHeader l).notice.poll = c.notice.poll ∧ (c.judgeHeader l).notice.pn = c.notice.pn ∧
    (c.judgeHeader l).notice.cn = c.notice.cn ∧ (c.judgeHeader l).payloadWrites = c.payloadWrites ∧
    (c.judgeHeader l).handlesTaken = c.handlesTaken := by
  unfold judgeHeader
  split
  · simp
  · split
    · simp
    · dsimp only
      split <;> simp

/-- What `takeLastHeaderByte` leaves unchanged. -/
@[simp] theorem Chip.takeLastHeaderByte_frame (c : Chip) (b : Byte) :
    (c.takeLastHeaderByte b).inReset = c.inReset ∧ (c.takeLastHeaderByte b).self = c.self ∧
    (c.takeLastHeaderByte b).now = c.now ∧ (c.takeLastHeaderByte b).freeIndex = c.freeIndex ∧
    (c.takeLastHeaderByte b).cmd.mode = c.cmd.mode ∧ (c.takeLastHeaderByte b).cmd.staging = c.cmd.staging ∧
    (c.takeLastHeaderByte b).cmd.setup = c.cmd.setup ∧ (c.takeLastHeaderByte b).cmd.memory = c.cmd.memory ∧
    (c.takeLastHeaderByte b).cmd.restartNumber = c.cmd.restartNumber ∧
    (c.takeLastHeaderByte b).cmd.faultAtEnd = c.cmd.faultAtEnd ∧ (c.takeLastHeaderByte b).cmd.faultPin = c.cmd.faultPin ∧
    (c.takeLastHeaderByte b).link.state = c.link.state ∧ (c.takeLastHeaderByte b).link.settle = c.link.settle ∧
    (c.takeLastHeaderByte b).link.hold = c.link.hold ∧ (c.takeLastHeaderByte b).link.nextPoint = c.link.nextPoint ∧
    (c.takeLastHeaderByte b).link.lastPoint = c.link.lastPoint ∧
    (c.takeLastHeaderByte b).link.beaconCount = c.link.beaconCount ∧
    (c.takeLastHeaderByte b).link.mediumIdle = c.link.mediumIdle ∧
    (c.takeLastHeaderByte b).link.receiver = c.link.receiver ∧ (c.takeLastHeaderByte b).link.presence = c.link.presence ∧
    (c.takeLastHeaderByte b).link.strike = c.link.strike ∧ (c.takeLastHeaderByte b).verdicts = c.verdicts ∧
    (c.takeLastHeaderByte b).notice.writing = c.notice.writing ∧ (c.takeLastHeaderByte b).notice.poll = c.notice.poll ∧
    (c.takeLastHeaderByte b).notice.pn = c.notice.pn ∧ (c.takeLastHeaderByte b).notice.cn = c.notice.cn ∧
    (c.takeLastHeaderByte b).payloadWrites = c.payloadWrites ∧
    (c.takeLastHeaderByte b).handlesTaken = c.handlesTaken := by
  unfold takeLastHeaderByte
  repeat' split
  all_goals simp

/-- What `takeCloseFlag` leaves unchanged. -/
@[simp] theorem Chip.takeCloseFlag_frame (c : Chip) (good : Bool) :
    (c.takeCloseFlag good).inReset = c.inReset ∧ (c.takeCloseFlag good).self = c.self ∧ (c.takeCloseFlag good).now = c.now ∧
    (c.takeCloseFlag good).freeIndex = c.freeIndex ∧ (c.takeCloseFlag good).cmd.mode = c.cmd.mode ∧
    (c.takeCloseFlag good).cmd.staging = c.cmd.staging ∧ (c.takeCloseFlag good).cmd.setup = c.cmd.setup ∧
    (c.takeCloseFlag good).cmd.memory = c.cmd.memory ∧ (c.takeCloseFlag good).cmd.restartNumber = c.cmd.restartNumber ∧
    (c.takeCloseFlag good).cmd.faultAtEnd = c.cmd.faultAtEnd ∧ (c.takeCloseFlag good).cmd.faultPin = c.cmd.faultPin ∧
    (c.takeCloseFlag good).link.state = c.link.state ∧ (c.takeCloseFlag good).link.settle = c.link.settle ∧
    (c.takeCloseFlag good).link.hold = c.link.hold ∧ (c.takeCloseFlag good).link.nextPoint = c.link.nextPoint ∧
    (c.takeCloseFlag good).link.lastPoint = c.link.lastPoint ∧
    (c.takeCloseFlag good).link.beaconCount = c.link.beaconCount ∧
    (c.takeCloseFlag good).link.mediumIdle = c.link.mediumIdle ∧ (c.takeCloseFlag good).link.receiver = c.link.receiver ∧
    (c.takeCloseFlag good).link.presence = c.link.presence ∧ (c.takeCloseFlag good).link.strike = c.link.strike ∧
    (c.takeCloseFlag good).verdicts = c.verdicts ∧ (c.takeCloseFlag good).notice.writing = c.notice.writing ∧
    (c.takeCloseFlag good).notice.poll = c.notice.poll ∧ (c.takeCloseFlag good).notice.pn = c.notice.pn ∧
    (c.takeCloseFlag good).notice.cn = c.notice.cn ∧ (c.takeCloseFlag good).payloadWrites = c.payloadWrites ∧
    (c.takeCloseFlag good).handlesTaken = c.handlesTaken := by
  unfold takeCloseFlag
  split
  · split
    · simp
    · split <;> simp
  · simp

/-- What `takeClosePayload` leaves unchanged. -/
@[simp] theorem Chip.takeClosePayload_frame (c : Chip) :
    (c.takeClosePayload).inReset = c.inReset ∧ (c.takeClosePayload).self = c.self ∧ (c.takeClosePayload).now = c.now ∧
    (c.takeClosePayload).freeIndex = c.freeIndex ∧ (c.takeClosePayload).cmd.mode = c.cmd.mode ∧
    (c.takeClosePayload).cmd.staging = c.cmd.staging ∧ (c.takeClosePayload).cmd.setup = c.cmd.setup ∧
    (c.takeClosePayload).cmd.memory = c.cmd.memory ∧ (c.takeClosePayload).cmd.restartNumber = c.cmd.restartNumber ∧
    (c.takeClosePayload).cmd.faultAtEnd = c.cmd.faultAtEnd ∧ (c.takeClosePayload).cmd.faultPin = c.cmd.faultPin ∧
    (c.takeClosePayload).fold = c.fold ∧ (c.takeClosePayload).link = c.link ∧ (c.takeClosePayload).slots = c.slots ∧
    (c.takeClosePayload).cache = c.cache ∧ (c.takeClosePayload).retired = c.retired ∧
    (c.takeClosePayload).nextSeq = c.nextSeq ∧ (c.takeClosePayload).pair = c.pair ∧
    (c.takeClosePayload).verdicts = c.verdicts ∧ (c.takeClosePayload).notice.queue = c.notice.queue ∧
    (c.takeClosePayload).notice.re = c.notice.re ∧ (c.takeClosePayload).notice.latches = c.notice.latches ∧
    (c.takeClosePayload).notice.writing = c.notice.writing ∧ (c.takeClosePayload).notice.poll = c.notice.poll ∧
    (c.takeClosePayload).notice.pn = c.notice.pn ∧ (c.takeClosePayload).notice.cn = c.notice.cn ∧
    (c.takeClosePayload).payloadWrites = c.payloadWrites ∧
    (c.takeClosePayload).handlesTaken = c.handlesTaken := by
  unfold takeClosePayload
  repeat' split
  all_goals simp

/-- What `handSum` leaves unchanged. -/
@[simp] theorem Chip.handSum_frame (c : Chip) (g : Segment) (u : FoldUnit) :
    (c.handSum g u).inReset = c.inReset ∧ (c.handSum g u).self = c.self ∧ (c.handSum g u).now = c.now ∧
    (c.handSum g u).freeIndex = c.freeIndex ∧ (c.handSum g u).cmd = c.cmd ∧ (c.handSum g u).link = c.link ∧
    (c.handSum g u).slots = c.slots ∧ (c.handSum g u).extFree = c.extFree ∧ (c.handSum g u).pendFree = c.pendFree ∧
    (c.handSum g u).cache = c.cache ∧ (c.handSum g u).retired = c.retired ∧ (c.handSum g u).nextSeq = c.nextSeq ∧
    (c.handSum g u).pair = c.pair ∧ (c.handSum g u).verdicts = c.verdicts ∧ (c.handSum g u).small = c.small ∧
    (c.handSum g u).large = c.large ∧ (c.handSum g u).notice = c.notice ∧
    (c.handSum g u).payloadWrites = c.payloadWrites ∧
    (c.handSum g u).handlesTaken = c.handlesTaken := by
  simp [handSum]

/-- What `takePayload` leaves unchanged. -/
@[simp] theorem Chip.takePayload_frame (c : Chip) (b : Byte) :
    (c.takePayload b).inReset = c.inReset ∧ (c.takePayload b).self = c.self ∧ (c.takePayload b).now = c.now ∧
    (c.takePayload b).freeIndex = c.freeIndex ∧ (c.takePayload b).cmd = c.cmd ∧ (c.takePayload b).link = c.link ∧
    (c.takePayload b).slots = c.slots ∧ (c.takePayload b).extFree = c.extFree ∧ (c.takePayload b).pendFree = c.pendFree ∧
    (c.takePayload b).cache = c.cache ∧ (c.takePayload b).retired = c.retired ∧ (c.takePayload b).nextSeq = c.nextSeq ∧
    (c.takePayload b).pair = c.pair ∧ (c.takePayload b).verdicts = c.verdicts ∧ (c.takePayload b).small = c.small ∧
    (c.takePayload b).large = c.large ∧ (c.takePayload b).notice = c.notice ∧
    (c.takePayload b).handlesTaken = c.handlesTaken := by
  unfold takePayload
  split
  · split
    · simp
    · dsimp only
      split
      · simp
      · split
        · split <;> simp
        · simp
  · simp

/-- What `endWalk` leaves unchanged. -/
@[simp] theorem Chip.endWalk_frame (c : Chip) :
    (c.endWalk).inReset = c.inReset ∧ (c.endWalk).self = c.self ∧ (c.endWalk).now = c.now ∧
    (c.endWalk).freeIndex = c.freeIndex ∧ (c.endWalk).cmd = c.cmd ∧ (c.endWalk).link = c.link ∧
    (c.endWalk).slots = c.slots ∧ (c.endWalk).extFree = c.extFree ∧ (c.endWalk).pendFree = c.pendFree ∧
    (c.endWalk).cache = c.cache ∧ (c.endWalk).retired = c.retired ∧ (c.endWalk).nextSeq = c.nextSeq ∧
    (c.endWalk).pair = c.pair ∧ (c.endWalk).verdicts = c.verdicts ∧ (c.endWalk).small = c.small ∧
    (c.endWalk).large = c.large ∧ (c.endWalk).notice = c.notice ∧ (c.endWalk).payloadWrites = c.payloadWrites ∧
    (c.endWalk).handlesTaken = c.handlesTaken := by
  unfold endWalk
  repeat' split
  all_goals simp

/-- What `completeAnchor` leaves unchanged. -/
@[simp] theorem Chip.completeAnchor_frame (c : Chip) (i : Nat) (ctx : Context) (a : Anchor) (g : Segment) (b : BlockItem) :
    (c.completeAnchor i ctx a g b).inReset = c.inReset ∧ (c.completeAnchor i ctx a g b).self = c.self ∧
    (c.completeAnchor i ctx a g b).now = c.now ∧ (c.completeAnchor i ctx a g b).freeIndex = c.freeIndex ∧
    (c.completeAnchor i ctx a g b).cmd.mode = c.cmd.mode ∧ (c.completeAnchor i ctx a g b).cmd.staging = c.cmd.staging ∧
    (c.completeAnchor i ctx a g b).cmd.setup = c.cmd.setup ∧ (c.completeAnchor i ctx a g b).cmd.memory = c.cmd.memory ∧
    (c.completeAnchor i ctx a g b).cmd.restartNumber = c.cmd.restartNumber ∧
    (c.completeAnchor i ctx a g b).cmd.faultAtEnd = c.cmd.faultAtEnd ∧
    (c.completeAnchor i ctx a g b).cmd.faultPin = c.cmd.faultPin ∧
    (c.completeAnchor i ctx a g b).link.state = c.link.state ∧ (c.completeAnchor i ctx a g b).link.settle = c.link.settle ∧
    (c.completeAnchor i ctx a g b).link.hold = c.link.hold ∧
    (c.completeAnchor i ctx a g b).link.nextPoint = c.link.nextPoint ∧
    (c.completeAnchor i ctx a g b).link.lastPoint = c.link.lastPoint ∧
    (c.completeAnchor i ctx a g b).link.beaconCount = c.link.beaconCount ∧
    (c.completeAnchor i ctx a g b).link.mediumIdle = c.link.mediumIdle ∧
    (c.completeAnchor i ctx a g b).link.receiver = c.link.receiver ∧
    (c.completeAnchor i ctx a g b).link.presence = c.link.presence ∧
    (c.completeAnchor i ctx a g b).link.strike = c.link.strike ∧ (c.completeAnchor i ctx a g b).nextSeq = c.nextSeq ∧
    (c.completeAnchor i ctx a g b).pair = c.pair ∧ (c.completeAnchor i ctx a g b).verdicts = c.verdicts ∧
    (c.completeAnchor i ctx a g b).notice.latches = c.notice.latches ∧
    (c.completeAnchor i ctx a g b).notice.writing = c.notice.writing ∧
    (c.completeAnchor i ctx a g b).notice.poll = c.notice.poll ∧ (c.completeAnchor i ctx a g b).notice.pn = c.notice.pn ∧
    (c.completeAnchor i ctx a g b).notice.cn = c.notice.cn ∧
    (c.completeAnchor i ctx a g b).payloadWrites = c.payloadWrites ∧
    (c.completeAnchor i ctx a g b).handlesTaken = c.handlesTaken := by
  unfold completeAnchor
  split
  · simp
  · split
    · simp
    · dsimp only
      split
      · simp
      · split <;> simp

/-- What `completeFeeder` leaves unchanged. -/
@[simp] theorem Chip.completeFeeder_frame (c : Chip) (i : Nat) (ctx : Context) (f : Feeder) (g : Segment) (b : BlockItem) :
    (c.completeFeeder i ctx f g b).inReset = c.inReset ∧ (c.completeFeeder i ctx f g b).self = c.self ∧
    (c.completeFeeder i ctx f g b).now = c.now ∧ (c.completeFeeder i ctx f g b).freeIndex = c.freeIndex ∧
    (c.completeFeeder i ctx f g b).cmd.mode = c.cmd.mode ∧ (c.completeFeeder i ctx f g b).cmd.staging = c.cmd.staging ∧
    (c.completeFeeder i ctx f g b).cmd.setup = c.cmd.setup ∧ (c.completeFeeder i ctx f g b).cmd.memory = c.cmd.memory ∧
    (c.completeFeeder i ctx f g b).cmd.restartNumber = c.cmd.restartNumber ∧
    (c.completeFeeder i ctx f g b).cmd.faultAtEnd = c.cmd.faultAtEnd ∧
    (c.completeFeeder i ctx f g b).cmd.faultPin = c.cmd.faultPin ∧
    (c.completeFeeder i ctx f g b).link.state = c.link.state ∧ (c.completeFeeder i ctx f g b).link.settle = c.link.settle ∧
    (c.completeFeeder i ctx f g b).link.hold = c.link.hold ∧
    (c.completeFeeder i ctx f g b).link.nextPoint = c.link.nextPoint ∧
    (c.completeFeeder i ctx f g b).link.lastPoint = c.link.lastPoint ∧
    (c.completeFeeder i ctx f g b).link.beaconCount = c.link.beaconCount ∧
    (c.completeFeeder i ctx f g b).link.mediumIdle = c.link.mediumIdle ∧
    (c.completeFeeder i ctx f g b).link.receiver = c.link.receiver ∧
    (c.completeFeeder i ctx f g b).link.presence = c.link.presence ∧
    (c.completeFeeder i ctx f g b).link.strike = c.link.strike ∧ (c.completeFeeder i ctx f g b).nextSeq = c.nextSeq ∧
    (c.completeFeeder i ctx f g b).pair = c.pair ∧ (c.completeFeeder i ctx f g b).verdicts = c.verdicts ∧
    (c.completeFeeder i ctx f g b).notice.latches = c.notice.latches ∧
    (c.completeFeeder i ctx f g b).notice.writing = c.notice.writing ∧
    (c.completeFeeder i ctx f g b).notice.poll = c.notice.poll ∧ (c.completeFeeder i ctx f g b).notice.pn = c.notice.pn ∧
    (c.completeFeeder i ctx f g b).notice.cn = c.notice.cn ∧
    (c.completeFeeder i ctx f g b).payloadWrites = c.payloadWrites ∧
    (c.completeFeeder i ctx f g b).handlesTaken = c.handlesTaken := by
  unfold completeFeeder
  dsimp only
  split <;> simp

/-- What `complete` leaves unchanged. -/
@[simp] theorem Chip.complete_frame (c : Chip) (g : Segment) (b : BlockItem) :
    (c.complete g b).inReset = c.inReset ∧ (c.complete g b).self = c.self ∧ (c.complete g b).now = c.now ∧
    (c.complete g b).freeIndex = c.freeIndex ∧ (c.complete g b).cmd.mode = c.cmd.mode ∧
    (c.complete g b).cmd.staging = c.cmd.staging ∧ (c.complete g b).cmd.setup = c.cmd.setup ∧
    (c.complete g b).cmd.memory = c.cmd.memory ∧ (c.complete g b).cmd.restartNumber = c.cmd.restartNumber ∧
    (c.complete g b).cmd.faultAtEnd = c.cmd.faultAtEnd ∧ (c.complete g b).cmd.faultPin = c.cmd.faultPin ∧
    (c.complete g b).link.state = c.link.state ∧ (c.complete g b).link.settle = c.link.settle ∧
    (c.complete g b).link.hold = c.link.hold ∧ (c.complete g b).link.nextPoint = c.link.nextPoint ∧
    (c.complete g b).link.lastPoint = c.link.lastPoint ∧ (c.complete g b).link.beaconCount = c.link.beaconCount ∧
    (c.complete g b).link.mediumIdle = c.link.mediumIdle ∧ (c.complete g b).link.receiver = c.link.receiver ∧
    (c.complete g b).link.presence = c.link.presence ∧ (c.complete g b).link.strike = c.link.strike ∧
    (c.complete g b).nextSeq = c.nextSeq ∧ (c.complete g b).pair = c.pair ∧ (c.complete g b).verdicts = c.verdicts ∧
    (c.complete g b).notice.latches = c.notice.latches ∧ (c.complete g b).notice.writing = c.notice.writing ∧
    (c.complete g b).notice.poll = c.notice.poll ∧ (c.complete g b).notice.pn = c.notice.pn ∧
    (c.complete g b).notice.cn = c.notice.cn ∧ (c.complete g b).payloadWrites = c.payloadWrites ∧
    (c.complete g b).handlesTaken = c.handlesTaken := by
  unfold complete
  repeat' split
  all_goals simp

/-- What `takeLandingFlag` leaves unchanged. -/
@[simp] theorem Chip.takeLandingFlag_frame (c : Chip) (good : Bool) :
    (c.takeLandingFlag good).inReset = c.inReset ∧ (c.takeLandingFlag good).self = c.self ∧
    (c.takeLandingFlag good).now = c.now ∧ (c.takeLandingFlag good).freeIndex = c.freeIndex ∧
    (c.takeLandingFlag good).cmd.mode = c.cmd.mode ∧ (c.takeLandingFlag good).cmd.staging = c.cmd.staging ∧
    (c.takeLandingFlag good).cmd.setup = c.cmd.setup ∧ (c.takeLandingFlag good).cmd.memory = c.cmd.memory ∧
    (c.takeLandingFlag good).cmd.restartNumber = c.cmd.restartNumber ∧
    (c.takeLandingFlag good).cmd.faultAtEnd = c.cmd.faultAtEnd ∧ (c.takeLandingFlag good).cmd.faultPin = c.cmd.faultPin ∧
    (c.takeLandingFlag good).link.state = c.link.state ∧ (c.takeLandingFlag good).link.settle = c.link.settle ∧
    (c.takeLandingFlag good).link.hold = c.link.hold ∧ (c.takeLandingFlag good).link.nextPoint = c.link.nextPoint ∧
    (c.takeLandingFlag good).link.lastPoint = c.link.lastPoint ∧
    (c.takeLandingFlag good).link.beaconCount = c.link.beaconCount ∧
    (c.takeLandingFlag good).link.mediumIdle = c.link.mediumIdle ∧
    (c.takeLandingFlag good).link.receiver = c.link.receiver ∧ (c.takeLandingFlag good).link.presence = c.link.presence ∧
    (c.takeLandingFlag good).link.strike = c.link.strike ∧ (c.takeLandingFlag good).verdicts = c.verdicts ∧
    (c.takeLandingFlag good).notice.writing = c.notice.writing ∧ (c.takeLandingFlag good).notice.poll = c.notice.poll ∧
    (c.takeLandingFlag good).notice.pn = c.notice.pn ∧ (c.takeLandingFlag good).notice.cn = c.notice.cn ∧
    (c.takeLandingFlag good).payloadWrites = c.payloadWrites ∧
    (c.takeLandingFlag good).handlesTaken = c.handlesTaken := by
  unfold takeLandingFlag
  split
  · dsimp only
    split
    · simp
    · split
      · simp
      · split <;> simp
  · simp

/-- What `takeDiscardFlag` leaves unchanged. -/
@[simp] theorem Chip.takeDiscardFlag_frame (c : Chip) :
    (c.takeDiscardFlag).inReset = c.inReset ∧ (c.takeDiscardFlag).self = c.self ∧ (c.takeDiscardFlag).now = c.now ∧
    (c.takeDiscardFlag).freeIndex = c.freeIndex ∧ (c.takeDiscardFlag).cmd = c.cmd ∧ (c.takeDiscardFlag).fold = c.fold ∧
    (c.takeDiscardFlag).link = c.link ∧ (c.takeDiscardFlag).slots = c.slots ∧ (c.takeDiscardFlag).extFree = c.extFree ∧
    (c.takeDiscardFlag).pendFree = c.pendFree ∧ (c.takeDiscardFlag).cache = c.cache ∧
    (c.takeDiscardFlag).retired = c.retired ∧ (c.takeDiscardFlag).nextSeq = c.nextSeq ∧ (c.takeDiscardFlag).pair = c.pair ∧
    (c.takeDiscardFlag).verdicts = c.verdicts ∧ (c.takeDiscardFlag).small = c.small ∧ (c.takeDiscardFlag).large = c.large ∧
    (c.takeDiscardFlag).notice = c.notice ∧ (c.takeDiscardFlag).payloadWrites = c.payloadWrites ∧
    (c.takeDiscardFlag).handlesTaken = c.handlesTaken := by
  unfold takeDiscardFlag
  repeat' split
  all_goals simp

/-- What `resumeIntake` leaves unchanged. -/
@[simp] theorem Chip.resumeIntake_frame (c : Chip) :
    (c.resumeIntake).inReset = c.inReset ∧ (c.resumeIntake).self = c.self ∧ (c.resumeIntake).now = c.now ∧
    (c.resumeIntake).freeIndex = c.freeIndex ∧ (c.resumeIntake).cmd.mode = c.cmd.mode ∧
    (c.resumeIntake).cmd.staging = c.cmd.staging ∧ (c.resumeIntake).cmd.setup = c.cmd.setup ∧
    (c.resumeIntake).cmd.memory = c.cmd.memory ∧ (c.resumeIntake).cmd.restartNumber = c.cmd.restartNumber ∧
    (c.resumeIntake).cmd.faultAtEnd = c.cmd.faultAtEnd ∧ (c.resumeIntake).cmd.faultPin = c.cmd.faultPin ∧
    (c.resumeIntake).link.state = c.link.state ∧ (c.resumeIntake).link.settle = c.link.settle ∧
    (c.resumeIntake).link.hold = c.link.hold ∧ (c.resumeIntake).link.nextPoint = c.link.nextPoint ∧
    (c.resumeIntake).link.lastPoint = c.link.lastPoint ∧ (c.resumeIntake).link.beaconCount = c.link.beaconCount ∧
    (c.resumeIntake).link.mediumIdle = c.link.mediumIdle ∧ (c.resumeIntake).link.receiver = c.link.receiver ∧
    (c.resumeIntake).link.presence = c.link.presence ∧ (c.resumeIntake).link.strike = c.link.strike ∧
    (c.resumeIntake).verdicts = c.verdicts ∧ (c.resumeIntake).notice.writing = c.notice.writing ∧
    (c.resumeIntake).notice.poll = c.notice.poll ∧ (c.resumeIntake).notice.pn = c.notice.pn ∧
    (c.resumeIntake).notice.cn = c.notice.cn ∧ (c.resumeIntake).payloadWrites = c.payloadWrites ∧
    (c.resumeIntake).handlesTaken = c.handlesTaken := by
  unfold resumeIntake
  split
  · simp
  · dsimp only
    split <;> split <;> simp

end Sys2Proof.Machine
end

