-- ==== Sys2Proof/Laws/CommandFrames.lean ====
section
/-! SUPPORT. The frame of each operation of the link, the heard frames, the timers, the command unit, and the memory port. -/

namespace Sys2Proof.Machine

open Chip

/-- What `mediumBusy` leaves unchanged. -/
@[simp] theorem Chip.mediumBusy_frame (c : Chip) :
    (c.mediumBusy).inReset = c.inReset ∧ (c.mediumBusy).self = c.self ∧ (c.mediumBusy).now = c.now ∧
    (c.mediumBusy).freeIndex = c.freeIndex ∧ (c.mediumBusy).cmd = c.cmd ∧ (c.mediumBusy).fold = c.fold ∧
    (c.mediumBusy).intake = c.intake ∧ (c.mediumBusy).link.state = c.link.state ∧ (c.mediumBusy).link.hold = c.link.hold ∧
    (c.mediumBusy).link.nextPoint = c.link.nextPoint ∧ (c.mediumBusy).link.lastPoint = c.link.lastPoint ∧
    (c.mediumBusy).link.beaconCount = c.link.beaconCount ∧ (c.mediumBusy).link.receiver = c.link.receiver ∧
    (c.mediumBusy).link.presence = c.link.presence ∧ (c.mediumBusy).link.strike = c.link.strike ∧
    (c.mediumBusy).link.queues = c.link.queues ∧ (c.mediumBusy).link.wire = c.link.wire ∧ (c.mediumBusy).slots = c.slots ∧
    (c.mediumBusy).extFree = c.extFree ∧ (c.mediumBusy).pendFree = c.pendFree ∧ (c.mediumBusy).cache = c.cache ∧
    (c.mediumBusy).retired = c.retired ∧ (c.mediumBusy).nextSeq = c.nextSeq ∧ (c.mediumBusy).pair = c.pair ∧
    (c.mediumBusy).verdicts = c.verdicts ∧ (c.mediumBusy).small = c.small ∧ (c.mediumBusy).large = c.large ∧
    (c.mediumBusy).notice = c.notice ∧ (c.mediumBusy).payloadWrites = c.payloadWrites ∧
    (c.mediumBusy).handlesTaken = c.handlesTaken := by
  simp [mediumBusy]

/-- What `leaveSeeking` leaves unchanged. -/
@[simp] theorem Chip.leaveSeeking_frame (c : Chip) :
    (c.leaveSeeking).inReset = c.inReset ∧ (c.leaveSeeking).self = c.self ∧ (c.leaveSeeking).now = c.now ∧
    (c.leaveSeeking).freeIndex = c.freeIndex ∧ (c.leaveSeeking).cmd = c.cmd ∧ (c.leaveSeeking).fold = c.fold ∧
    (c.leaveSeeking).intake = c.intake ∧ (c.leaveSeeking).link.hold = c.link.hold ∧
    (c.leaveSeeking).link.nextPoint = c.link.nextPoint ∧ (c.leaveSeeking).link.lastPoint = c.link.lastPoint ∧
    (c.leaveSeeking).link.beaconCount = c.link.beaconCount ∧ (c.leaveSeeking).link.mediumIdle = c.link.mediumIdle ∧
    (c.leaveSeeking).link.receiver = c.link.receiver ∧ (c.leaveSeeking).link.presence = c.link.presence ∧
    (c.leaveSeeking).link.strike = c.link.strike ∧ (c.leaveSeeking).link.queues = c.link.queues ∧
    (c.leaveSeeking).link.wire = c.link.wire ∧ (c.leaveSeeking).slots = c.slots ∧ (c.leaveSeeking).extFree = c.extFree ∧
    (c.leaveSeeking).pendFree = c.pendFree ∧ (c.leaveSeeking).cache = c.cache ∧ (c.leaveSeeking).retired = c.retired ∧
    (c.leaveSeeking).nextSeq = c.nextSeq ∧ (c.leaveSeeking).pair = c.pair ∧ (c.leaveSeeking).verdicts = c.verdicts ∧
    (c.leaveSeeking).small = c.small ∧ (c.leaveSeeking).large = c.large ∧ (c.leaveSeeking).notice = c.notice ∧
    (c.leaveSeeking).payloadWrites = c.payloadWrites ∧
    (c.leaveSeeking).handlesTaken = c.handlesTaken := by
  unfold leaveSeeking
  repeat' split
  all_goals simp

/-- What `validIdle` leaves unchanged. -/
@[simp] theorem Chip.validIdle_frame (c : Chip) :
    (c.validIdle).inReset = c.inReset ∧ (c.validIdle).self = c.self ∧ (c.validIdle).now = c.now ∧
    (c.validIdle).freeIndex = c.freeIndex ∧ (c.validIdle).cmd = c.cmd ∧ (c.validIdle).fold = c.fold ∧
    (c.validIdle).intake = c.intake ∧ (c.validIdle).link.hold = c.link.hold ∧
    (c.validIdle).link.nextPoint = c.link.nextPoint ∧ (c.validIdle).link.lastPoint = c.link.lastPoint ∧
    (c.validIdle).link.beaconCount = c.link.beaconCount ∧ (c.validIdle).link.presence = c.link.presence ∧
    (c.validIdle).link.strike = c.link.strike ∧ (c.validIdle).link.queues = c.link.queues ∧ (c.validIdle).slots = c.slots ∧
    (c.validIdle).extFree = c.extFree ∧ (c.validIdle).pendFree = c.pendFree ∧ (c.validIdle).cache = c.cache ∧
    (c.validIdle).retired = c.retired ∧ (c.validIdle).nextSeq = c.nextSeq ∧ (c.validIdle).pair = c.pair ∧
    (c.validIdle).verdicts = c.verdicts ∧ (c.validIdle).small = c.small ∧ (c.validIdle).large = c.large ∧
    (c.validIdle).notice = c.notice ∧ (c.validIdle).payloadWrites = c.payloadWrites ∧
    (c.validIdle).handlesTaken = c.handlesTaken := by
  simp [validIdle]

/-- What `leaveValidIdle` leaves unchanged. -/
@[simp] theorem Chip.leaveValidIdle_frame (c : Chip) (begins : Bool) :
    (c.leaveValidIdle begins).inReset = c.inReset ∧ (c.leaveValidIdle begins).self = c.self ∧
    (c.leaveValidIdle begins).now = c.now ∧ (c.leaveValidIdle begins).freeIndex = c.freeIndex ∧
    (c.leaveValidIdle begins).cmd = c.cmd ∧ (c.leaveValidIdle begins).fold = c.fold ∧
    (c.leaveValidIdle begins).intake = c.intake ∧ (c.leaveValidIdle begins).link.state = c.link.state ∧
    (c.leaveValidIdle begins).link.hold = c.link.hold ∧ (c.leaveValidIdle begins).link.nextPoint = c.link.nextPoint ∧
    (c.leaveValidIdle begins).link.lastPoint = c.link.lastPoint ∧
    (c.leaveValidIdle begins).link.beaconCount = c.link.beaconCount ∧
    (c.leaveValidIdle begins).link.presence = c.link.presence ∧ (c.leaveValidIdle begins).link.strike = c.link.strike ∧
    (c.leaveValidIdle begins).link.queues = c.link.queues ∧ (c.leaveValidIdle begins).slots = c.slots ∧
    (c.leaveValidIdle begins).extFree = c.extFree ∧ (c.leaveValidIdle begins).pendFree = c.pendFree ∧
    (c.leaveValidIdle begins).cache = c.cache ∧ (c.leaveValidIdle begins).retired = c.retired ∧
    (c.leaveValidIdle begins).nextSeq = c.nextSeq ∧ (c.leaveValidIdle begins).pair = c.pair ∧
    (c.leaveValidIdle begins).verdicts = c.verdicts ∧ (c.leaveValidIdle begins).small = c.small ∧
    (c.leaveValidIdle begins).large = c.large ∧ (c.leaveValidIdle begins).notice = c.notice ∧
    (c.leaveValidIdle begins).payloadWrites = c.payloadWrites ∧
    (c.leaveValidIdle begins).handlesTaken = c.handlesTaken := by
  simp only [leaveValidIdle]
  split <;> split <;> simp

/-- What `unsend` leaves unchanged. -/
@[simp] theorem Chip.unsend_frame (c : Chip) (w : Wire) :
    (c.unsend w).inReset = c.inReset ∧ (c.unsend w).self = c.self ∧ (c.unsend w).now = c.now ∧
    (c.unsend w).freeIndex = c.freeIndex ∧ (c.unsend w).cmd = c.cmd ∧ (c.unsend w).fold = c.fold ∧
    (c.unsend w).intake = c.intake ∧ (c.unsend w).link.state = c.link.state ∧ (c.unsend w).link.settle = c.link.settle ∧
    (c.unsend w).link.hold = c.link.hold ∧ (c.unsend w).link.nextPoint = c.link.nextPoint ∧
    (c.unsend w).link.lastPoint = c.link.lastPoint ∧ (c.unsend w).link.beaconCount = c.link.beaconCount ∧
    (c.unsend w).link.mediumIdle = c.link.mediumIdle ∧ (c.unsend w).link.receiver = c.link.receiver ∧
    (c.unsend w).link.presence = c.link.presence ∧ (c.unsend w).link.strike = c.link.strike ∧
    (c.unsend w).extFree = c.extFree ∧ (c.unsend w).pendFree = c.pendFree ∧ (c.unsend w).cache = c.cache ∧
    (c.unsend w).retired = c.retired ∧ (c.unsend w).nextSeq = c.nextSeq ∧ (c.unsend w).pair = c.pair ∧
    (c.unsend w).verdicts = c.verdicts ∧ (c.unsend w).small = c.small ∧ (c.unsend w).large = c.large ∧
    (c.unsend w).notice = c.notice ∧ (c.unsend w).payloadWrites = c.payloadWrites ∧
    (c.unsend w).handlesTaken = c.handlesTaken := by
  simp only [unsend]
  split <;> simp

/-- What `loseArbitration` leaves unchanged. -/
@[simp] theorem Chip.loseArbitration_frame (c : Chip) :
    (c.loseArbitration).inReset = c.inReset ∧ (c.loseArbitration).self = c.self ∧ (c.loseArbitration).now = c.now ∧
    (c.loseArbitration).freeIndex = c.freeIndex ∧ (c.loseArbitration).cmd = c.cmd ∧ (c.loseArbitration).fold = c.fold ∧
    (c.loseArbitration).intake = c.intake ∧ (c.loseArbitration).link.state = c.link.state ∧
    (c.loseArbitration).link.settle = c.link.settle ∧ (c.loseArbitration).link.hold = c.link.hold ∧
    (c.loseArbitration).link.nextPoint = c.link.nextPoint ∧ (c.loseArbitration).link.lastPoint = c.link.lastPoint ∧
    (c.loseArbitration).link.beaconCount = c.link.beaconCount ∧ (c.loseArbitration).link.presence = c.link.presence ∧
    (c.loseArbitration).link.strike = c.link.strike ∧ (c.loseArbitration).extFree = c.extFree ∧
    (c.loseArbitration).pendFree = c.pendFree ∧ (c.loseArbitration).cache = c.cache ∧
    (c.loseArbitration).retired = c.retired ∧ (c.loseArbitration).nextSeq = c.nextSeq ∧ (c.loseArbitration).pair = c.pair ∧
    (c.loseArbitration).verdicts = c.verdicts ∧ (c.loseArbitration).small = c.small ∧ (c.loseArbitration).large = c.large ∧
    (c.loseArbitration).notice = c.notice ∧ (c.loseArbitration).payloadWrites = c.payloadWrites ∧
    (c.loseArbitration).handlesTaken = c.handlesTaken := by
  unfold loseArbitration
  split <;> simp

/-- What `claimSent` leaves unchanged. -/
@[simp] theorem Chip.claimSent_frame (c : Chip) (t : Tag) :
    (c.claimSent t).inReset = c.inReset ∧ (c.claimSent t).self = c.self ∧ (c.claimSent t).now = c.now ∧
    (c.claimSent t).freeIndex = c.freeIndex ∧ (c.claimSent t).cmd = c.cmd ∧ (c.claimSent t).fold = c.fold ∧
    (c.claimSent t).intake = c.intake ∧ (c.claimSent t).link = c.link ∧ (c.claimSent t).extFree = c.extFree ∧
    (c.claimSent t).pendFree = c.pendFree ∧ (c.claimSent t).cache = c.cache ∧ (c.claimSent t).retired = c.retired ∧
    (c.claimSent t).nextSeq = c.nextSeq ∧ (c.claimSent t).pair = c.pair ∧ (c.claimSent t).verdicts = c.verdicts ∧
    (c.claimSent t).small = c.small ∧ (c.claimSent t).large = c.large ∧ (c.claimSent t).notice = c.notice ∧
    (c.claimSent t).payloadWrites = c.payloadWrites ∧
    (c.claimSent t).handlesTaken = c.handlesTaken := by
  unfold claimSent
  repeat' split
  all_goals simp

/-- What `tallySent` leaves unchanged. -/
@[simp] theorem Chip.tallySent_frame (c : Chip) (b : TallyBody) :
    (c.tallySent b).inReset = c.inReset ∧ (c.tallySent b).self = c.self ∧ (c.tallySent b).now = c.now ∧
    (c.tallySent b).freeIndex = c.freeIndex ∧ (c.tallySent b).cmd = c.cmd ∧ (c.tallySent b).fold = c.fold ∧
    (c.tallySent b).intake = c.intake ∧ (c.tallySent b).link = c.link ∧ (c.tallySent b).extFree = c.extFree ∧
    (c.tallySent b).pendFree = c.pendFree ∧ (c.tallySent b).cache = c.cache ∧ (c.tallySent b).retired = c.retired ∧
    (c.tallySent b).nextSeq = c.nextSeq ∧ (c.tallySent b).pair = c.pair ∧ (c.tallySent b).verdicts = c.verdicts ∧
    (c.tallySent b).small = c.small ∧ (c.tallySent b).large = c.large ∧ (c.tallySent b).notice = c.notice ∧
    (c.tallySent b).payloadWrites = c.payloadWrites ∧
    (c.tallySent b).handlesTaken = c.handlesTaken := by
  unfold tallySent
  repeat' split
  all_goals simp

/-- What `sentEvent` leaves unchanged. -/
@[simp] theorem Chip.sentEvent_frame (c : Chip) (w : Wire) :
    (c.sentEvent w).inReset = c.inReset ∧ (c.sentEvent w).self = c.self ∧ (c.sentEvent w).now = c.now ∧
    (c.sentEvent w).freeIndex = c.freeIndex ∧ (c.sentEvent w).cmd = c.cmd ∧ (c.sentEvent w).fold = c.fold ∧
    (c.sentEvent w).intake = c.intake ∧ (c.sentEvent w).link = c.link ∧ (c.sentEvent w).extFree = c.extFree ∧
    (c.sentEvent w).pendFree = c.pendFree ∧ (c.sentEvent w).cache = c.cache ∧ (c.sentEvent w).retired = c.retired ∧
    (c.sentEvent w).nextSeq = c.nextSeq ∧ (c.sentEvent w).pair = c.pair ∧ (c.sentEvent w).verdicts = c.verdicts ∧
    (c.sentEvent w).small = c.small ∧ (c.sentEvent w).large = c.large ∧ (c.sentEvent w).notice = c.notice ∧
    (c.sentEvent w).payloadWrites = c.payloadWrites ∧
    (c.sentEvent w).handlesTaken = c.handlesTaken := by
  unfold sentEvent
  repeat' split
  all_goals simp

/-- What `frameSent` leaves unchanged. -/
@[simp] theorem Chip.frameSent_frame (c : Chip) :
    (c.frameSent).inReset = c.inReset ∧ (c.frameSent).self = c.self ∧ (c.frameSent).now = c.now ∧
    (c.frameSent).freeIndex = c.freeIndex ∧ (c.frameSent).cmd = c.cmd ∧ (c.frameSent).fold = c.fold ∧
    (c.frameSent).intake = c.intake ∧ (c.frameSent).link.state = c.link.state ∧ (c.frameSent).link.settle = c.link.settle ∧
    (c.frameSent).link.hold = c.link.hold ∧ (c.frameSent).link.nextPoint = c.link.nextPoint ∧
    (c.frameSent).link.lastPoint = c.link.lastPoint ∧ (c.frameSent).link.beaconCount = c.link.beaconCount ∧
    (c.frameSent).link.receiver = c.link.receiver ∧ (c.frameSent).link.presence = c.link.presence ∧
    (c.frameSent).extFree = c.extFree ∧ (c.frameSent).pendFree = c.pendFree ∧ (c.frameSent).cache = c.cache ∧
    (c.frameSent).retired = c.retired ∧ (c.frameSent).nextSeq = c.nextSeq ∧ (c.frameSent).pair = c.pair ∧
    (c.frameSent).verdicts = c.verdicts ∧ (c.frameSent).small = c.small ∧ (c.frameSent).large = c.large ∧
    (c.frameSent).notice = c.notice ∧ (c.frameSent).payloadWrites = c.payloadWrites ∧
    (c.frameSent).handlesTaken = c.handlesTaken := by
  unfold frameSent
  split
  · simp
  · dsimp only
    split <;> simp

/-- What `losePlace` leaves unchanged. -/
@[simp] theorem Chip.losePlace_frame (c : Chip) (n : Fin 16) :
    (c.losePlace n).inReset = c.inReset ∧ (c.losePlace n).self = c.self ∧ (c.losePlace n).now = c.now ∧
    (c.losePlace n).freeIndex = c.freeIndex ∧ (c.losePlace n).cmd.mode = c.cmd.mode ∧
    (c.losePlace n).cmd.staging = c.cmd.staging ∧ (c.losePlace n).cmd.setup = c.cmd.setup ∧
    (c.losePlace n).cmd.memory = c.cmd.memory ∧ (c.losePlace n).cmd.restartNumber = c.cmd.restartNumber ∧
    (c.losePlace n).cmd.faultAtEnd = c.cmd.faultAtEnd ∧ (c.losePlace n).cmd.faultPin = c.cmd.faultPin ∧
    (c.losePlace n).fold = c.fold ∧ (c.losePlace n).intake = c.intake ∧ (c.losePlace n).link.hold = c.link.hold ∧
    (c.losePlace n).link.nextPoint = c.link.nextPoint ∧ (c.losePlace n).link.lastPoint = c.link.lastPoint ∧
    (c.losePlace n).link.beaconCount = c.link.beaconCount ∧ (c.losePlace n).link.presence = c.link.presence ∧
    (c.losePlace n).link.strike = c.link.strike ∧ (c.losePlace n).link.queues = c.link.queues ∧
    (c.losePlace n).link.wire = c.link.wire ∧ (c.losePlace n).slots = c.slots ∧ (c.losePlace n).extFree = c.extFree ∧
    (c.losePlace n).pendFree = c.pendFree ∧ (c.losePlace n).cache = c.cache ∧ (c.losePlace n).retired = c.retired ∧
    (c.losePlace n).nextSeq = c.nextSeq ∧ (c.losePlace n).pair = c.pair ∧ (c.losePlace n).verdicts = c.verdicts ∧
    (c.losePlace n).small = c.small ∧ (c.losePlace n).large = c.large ∧ (c.losePlace n).notice = c.notice ∧
    (c.losePlace n).payloadWrites = c.payloadWrites ∧
    (c.losePlace n).handlesTaken = c.handlesTaken := by
  unfold losePlace
  repeat' split
  all_goals simp

/-- What `frameEnds` leaves unchanged. -/
@[simp] theorem Chip.frameEnds_frame (c : Chip) :
    (c.frameEnds).inReset = c.inReset ∧ (c.frameEnds).self = c.self ∧ (c.frameEnds).now = c.now ∧
    (c.frameEnds).freeIndex = c.freeIndex ∧ (c.frameEnds).cmd = c.cmd ∧ (c.frameEnds).fold = c.fold ∧
    (c.frameEnds).intake = c.intake ∧ (c.frameEnds).link.state = c.link.state ∧ (c.frameEnds).link.hold = c.link.hold ∧
    (c.frameEnds).link.nextPoint = c.link.nextPoint ∧ (c.frameEnds).link.lastPoint = c.link.lastPoint ∧
    (c.frameEnds).link.beaconCount = c.link.beaconCount ∧ (c.frameEnds).link.presence = c.link.presence ∧
    (c.frameEnds).link.strike = c.link.strike ∧ (c.frameEnds).link.queues = c.link.queues ∧
    (c.frameEnds).link.wire = c.link.wire ∧ (c.frameEnds).slots = c.slots ∧ (c.frameEnds).extFree = c.extFree ∧
    (c.frameEnds).pendFree = c.pendFree ∧ (c.frameEnds).cache = c.cache ∧ (c.frameEnds).retired = c.retired ∧
    (c.frameEnds).nextSeq = c.nextSeq ∧ (c.frameEnds).pair = c.pair ∧ (c.frameEnds).verdicts = c.verdicts ∧
    (c.frameEnds).small = c.small ∧ (c.frameEnds).large = c.large ∧ (c.frameEnds).notice = c.notice ∧
    (c.frameEnds).payloadWrites = c.payloadWrites ∧
    (c.frameEnds).handlesTaken = c.handlesTaken := by
  simp [frameEnds]

/-- What `discardFrame` leaves unchanged. -/
@[simp] theorem Chip.discardFrame_frame (c : Chip) :
    (c.discardFrame).inReset = c.inReset ∧ (c.discardFrame).self = c.self ∧ (c.discardFrame).now = c.now ∧
    (c.discardFrame).freeIndex = c.freeIndex ∧ (c.discardFrame).cmd.mode = c.cmd.mode ∧
    (c.discardFrame).cmd.staging = c.cmd.staging ∧ (c.discardFrame).cmd.setup = c.cmd.setup ∧
    (c.discardFrame).cmd.memory = c.cmd.memory ∧ (c.discardFrame).cmd.restartNumber = c.cmd.restartNumber ∧
    (c.discardFrame).cmd.faultAtEnd = c.cmd.faultAtEnd ∧ (c.discardFrame).cmd.faultPin = c.cmd.faultPin ∧
    (c.discardFrame).fold = c.fold ∧ (c.discardFrame).intake = c.intake ∧ (c.discardFrame).link.state = c.link.state ∧
    (c.discardFrame).link.hold = c.link.hold ∧ (c.discardFrame).link.nextPoint = c.link.nextPoint ∧
    (c.discardFrame).link.lastPoint = c.link.lastPoint ∧ (c.discardFrame).link.beaconCount = c.link.beaconCount ∧
    (c.discardFrame).link.presence = c.link.presence ∧ (c.discardFrame).link.strike = c.link.strike ∧
    (c.discardFrame).link.queues = c.link.queues ∧ (c.discardFrame).link.wire = c.link.wire ∧
    (c.discardFrame).slots = c.slots ∧ (c.discardFrame).extFree = c.extFree ∧ (c.discardFrame).pendFree = c.pendFree ∧
    (c.discardFrame).cache = c.cache ∧ (c.discardFrame).retired = c.retired ∧ (c.discardFrame).nextSeq = c.nextSeq ∧
    (c.discardFrame).pair = c.pair ∧ (c.discardFrame).verdicts = c.verdicts ∧ (c.discardFrame).small = c.small ∧
    (c.discardFrame).large = c.large ∧ (c.discardFrame).notice = c.notice ∧
    (c.discardFrame).payloadWrites = c.payloadWrites ∧
    (c.discardFrame).handlesTaken = c.handlesTaken := by
  simp [discardFrame]

/-- What `setPresence` leaves unchanged. -/
@[simp] theorem Chip.setPresence_frame (c : Chip) (x : Station) (p : Presence) :
    (c.setPresence x p).inReset = c.inReset ∧ (c.setPresence x p).self = c.self ∧ (c.setPresence x p).now = c.now ∧
    (c.setPresence x p).freeIndex = c.freeIndex ∧ (c.setPresence x p).cmd = c.cmd ∧ (c.setPresence x p).fold = c.fold ∧
    (c.setPresence x p).intake = c.intake ∧ (c.setPresence x p).link.state = c.link.state ∧
    (c.setPresence x p).link.settle = c.link.settle ∧ (c.setPresence x p).link.hold = c.link.hold ∧
    (c.setPresence x p).link.nextPoint = c.link.nextPoint ∧ (c.setPresence x p).link.lastPoint = c.link.lastPoint ∧
    (c.setPresence x p).link.beaconCount = c.link.beaconCount ∧ (c.setPresence x p).link.mediumIdle = c.link.mediumIdle ∧
    (c.setPresence x p).link.receiver = c.link.receiver ∧ (c.setPresence x p).link.strike = c.link.strike ∧
    (c.setPresence x p).link.queues = c.link.queues ∧ (c.setPresence x p).link.wire = c.link.wire ∧
    (c.setPresence x p).slots = c.slots ∧ (c.setPresence x p).extFree = c.extFree ∧
    (c.setPresence x p).pendFree = c.pendFree ∧ (c.setPresence x p).cache = c.cache ∧
    (c.setPresence x p).retired = c.retired ∧ (c.setPresence x p).nextSeq = c.nextSeq ∧ (c.setPresence x p).pair = c.pair ∧
    (c.setPresence x p).verdicts = c.verdicts ∧ (c.setPresence x p).small = c.small ∧ (c.setPresence x p).large = c.large ∧
    (c.setPresence x p).notice = c.notice ∧ (c.setPresence x p).payloadWrites = c.payloadWrites ∧
    (c.setPresence x p).handlesTaken = c.handlesTaken := by
  simp [setPresence]

/-- What `validFrom` leaves unchanged. -/
@[simp] theorem Chip.validFrom_frame (c : Chip) (x : Station) :
    (c.validFrom x).inReset = c.inReset ∧ (c.validFrom x).self = c.self ∧ (c.validFrom x).now = c.now ∧
    (c.validFrom x).freeIndex = c.freeIndex ∧ (c.validFrom x).cmd = c.cmd ∧ (c.validFrom x).fold = c.fold ∧
    (c.validFrom x).intake = c.intake ∧ (c.validFrom x).link.state = c.link.state ∧
    (c.validFrom x).link.settle = c.link.settle ∧ (c.validFrom x).link.nextPoint = c.link.nextPoint ∧
    (c.validFrom x).link.lastPoint = c.link.lastPoint ∧ (c.validFrom x).link.beaconCount = c.link.beaconCount ∧
    (c.validFrom x).link.mediumIdle = c.link.mediumIdle ∧ (c.validFrom x).link.receiver = c.link.receiver ∧
    (c.validFrom x).link.strike = c.link.strike ∧ (c.validFrom x).link.queues = c.link.queues ∧
    (c.validFrom x).link.wire = c.link.wire ∧ (c.validFrom x).slots = c.slots ∧ (c.validFrom x).extFree = c.extFree ∧
    (c.validFrom x).pendFree = c.pendFree ∧ (c.validFrom x).cache = c.cache ∧ (c.validFrom x).retired = c.retired ∧
    (c.validFrom x).nextSeq = c.nextSeq ∧ (c.validFrom x).pair = c.pair ∧ (c.validFrom x).verdicts = c.verdicts ∧
    (c.validFrom x).small = c.small ∧ (c.validFrom x).large = c.large ∧ (c.validFrom x).notice.re = c.notice.re ∧
    (c.validFrom x).notice.rb = c.notice.rb ∧ (c.validFrom x).notice.writing = c.notice.writing ∧
    (c.validFrom x).notice.poll = c.notice.poll ∧ (c.validFrom x).notice.pn = c.notice.pn ∧
    (c.validFrom x).notice.cn = c.notice.cn ∧ (c.validFrom x).payloadWrites = c.payloadWrites ∧
    (c.validFrom x).handlesTaken = c.handlesTaken := by
  unfold validFrom
  split
  · dsimp only
    split <;> simp
  · simp

/-- What `loseSync` leaves unchanged. -/
@[simp] theorem Chip.loseSync_frame (c : Chip) :
    (c.loseSync).inReset = c.inReset ∧ (c.loseSync).self = c.self ∧ (c.loseSync).now = c.now ∧
    (c.loseSync).freeIndex = c.freeIndex ∧ (c.loseSync).cmd = c.cmd ∧ (c.loseSync).fold = c.fold ∧
    (c.loseSync).intake = c.intake ∧ (c.loseSync).link.settle = c.link.settle ∧
    (c.loseSync).link.beaconCount = c.link.beaconCount ∧ (c.loseSync).link.mediumIdle = c.link.mediumIdle ∧
    (c.loseSync).link.receiver = c.link.receiver ∧ (c.loseSync).link.strike = c.link.strike ∧
    (c.loseSync).link.queues = c.link.queues ∧ (c.loseSync).link.wire = c.link.wire ∧ (c.loseSync).extFree = c.extFree ∧
    (c.loseSync).pendFree = c.pendFree ∧ (c.loseSync).cache = c.cache ∧ (c.loseSync).retired = c.retired ∧
    (c.loseSync).nextSeq = c.nextSeq ∧ (c.loseSync).pair = c.pair ∧ (c.loseSync).verdicts = c.verdicts ∧
    (c.loseSync).small = c.small ∧ (c.loseSync).large = c.large ∧ (c.loseSync).notice = c.notice ∧
    (c.loseSync).payloadWrites = c.payloadWrites ∧
    (c.loseSync).handlesTaken = c.handlesTaken := by
  simp [loseSync]

/-- What `holdExpiry` leaves unchanged. -/
@[simp] theorem Chip.holdExpiry_frame (c : Chip) :
    (c.holdExpiry).inReset = c.inReset ∧ (c.holdExpiry).self = c.self ∧ (c.holdExpiry).freeIndex = c.freeIndex ∧
    (c.holdExpiry).cmd = c.cmd ∧ (c.holdExpiry).fold = c.fold ∧ (c.holdExpiry).link.beaconCount = c.link.beaconCount ∧
    (c.holdExpiry).link.mediumIdle = c.link.mediumIdle ∧ (c.holdExpiry).link.receiver = c.link.receiver ∧
    (c.holdExpiry).link.strike = c.link.strike ∧ (c.holdExpiry).link.wire = c.link.wire ∧
    (c.holdExpiry).extFree = c.extFree ∧ (c.holdExpiry).pendFree = c.pendFree ∧ (c.holdExpiry).cache = c.cache ∧
    (c.holdExpiry).retired = c.retired ∧ (c.holdExpiry).verdicts = c.verdicts ∧ (c.holdExpiry).small = c.small ∧
    (c.holdExpiry).large = c.large ∧ (c.holdExpiry).notice.re = c.notice.re ∧ (c.holdExpiry).notice.rb = c.notice.rb ∧
    (c.holdExpiry).notice.writing = c.notice.writing ∧ (c.holdExpiry).notice.poll = c.notice.poll ∧
    (c.holdExpiry).notice.pn = c.notice.pn ∧ (c.holdExpiry).notice.cn = c.notice.cn ∧
    (c.holdExpiry).payloadWrites = c.payloadWrites ∧
    (c.holdExpiry).handlesTaken = c.handlesTaken := by
  unfold holdExpiry
  repeat' split
  all_goals simp

/-- What `enterSynced` leaves unchanged. -/
@[simp] theorem Chip.enterSynced_frame (c : Chip) :
    (c.enterSynced).inReset = c.inReset ∧ (c.enterSynced).self = c.self ∧ (c.enterSynced).now = c.now ∧
    (c.enterSynced).freeIndex = c.freeIndex ∧ (c.enterSynced).cmd = c.cmd ∧ (c.enterSynced).fold = c.fold ∧
    (c.enterSynced).intake = c.intake ∧ (c.enterSynced).link.beaconCount = c.link.beaconCount ∧
    (c.enterSynced).link.mediumIdle = c.link.mediumIdle ∧ (c.enterSynced).link.receiver = c.link.receiver ∧
    (c.enterSynced).link.strike = c.link.strike ∧ (c.enterSynced).link.queues = c.link.queues ∧
    (c.enterSynced).link.wire = c.link.wire ∧ (c.enterSynced).extFree = c.extFree ∧ (c.enterSynced).pendFree = c.pendFree ∧
    (c.enterSynced).cache = c.cache ∧ (c.enterSynced).retired = c.retired ∧ (c.enterSynced).nextSeq = c.nextSeq ∧
    (c.enterSynced).pair = c.pair ∧ (c.enterSynced).verdicts = c.verdicts ∧ (c.enterSynced).small = c.small ∧
    (c.enterSynced).large = c.large ∧ (c.enterSynced).notice = c.notice ∧
    (c.enterSynced).payloadWrites = c.payloadWrites ∧
    (c.enterSynced).handlesTaken = c.handlesTaken := by
  simp [enterSynced]

/-- What `settleDone` leaves unchanged. -/
@[simp] theorem Chip.settleDone_frame (c : Chip) :
    (c.settleDone).inReset = c.inReset ∧ (c.settleDone).self = c.self ∧ (c.settleDone).freeIndex = c.freeIndex ∧
    (c.settleDone).cmd = c.cmd ∧ (c.settleDone).fold = c.fold ∧ (c.settleDone).link.beaconCount = c.link.beaconCount ∧
    (c.settleDone).link.mediumIdle = c.link.mediumIdle ∧ (c.settleDone).link.receiver = c.link.receiver ∧
    (c.settleDone).link.strike = c.link.strike ∧ (c.settleDone).extFree = c.extFree ∧ (c.settleDone).pendFree = c.pendFree ∧
    (c.settleDone).cache = c.cache ∧ (c.settleDone).retired = c.retired ∧ (c.settleDone).verdicts = c.verdicts ∧
    (c.settleDone).small = c.small ∧ (c.settleDone).large = c.large ∧ (c.settleDone).notice.re = c.notice.re ∧
    (c.settleDone).notice.rb = c.notice.rb ∧ (c.settleDone).notice.writing = c.notice.writing ∧
    (c.settleDone).notice.poll = c.notice.poll ∧ (c.settleDone).notice.pn = c.notice.pn ∧
    (c.settleDone).notice.cn = c.notice.cn ∧ (c.settleDone).payloadWrites = c.payloadWrites ∧
    (c.settleDone).handlesTaken = c.handlesTaken := by
  unfold settleDone
  split
  · split
    · dsimp only
      split <;> simp
    · simp
  · simp

/-- What `beaconPoint` leaves unchanged. -/
@[simp] theorem Chip.beaconPoint_frame (c : Chip) :
    (c.beaconPoint).inReset = c.inReset ∧ (c.beaconPoint).self = c.self ∧ (c.beaconPoint).freeIndex = c.freeIndex ∧
    (c.beaconPoint).cmd = c.cmd ∧ (c.beaconPoint).fold = c.fold ∧ (c.beaconPoint).intake = c.intake ∧
    (c.beaconPoint).link.state = c.link.state ∧ (c.beaconPoint).link.settle = c.link.settle ∧
    (c.beaconPoint).link.hold = c.link.hold ∧ (c.beaconPoint).link.mediumIdle = c.link.mediumIdle ∧
    (c.beaconPoint).link.receiver = c.link.receiver ∧ (c.beaconPoint).link.presence = c.link.presence ∧
    (c.beaconPoint).link.strike = c.link.strike ∧ (c.beaconPoint).link.wire = c.link.wire ∧
    (c.beaconPoint).slots = c.slots ∧ (c.beaconPoint).extFree = c.extFree ∧ (c.beaconPoint).pendFree = c.pendFree ∧
    (c.beaconPoint).cache = c.cache ∧ (c.beaconPoint).retired = c.retired ∧ (c.beaconPoint).nextSeq = c.nextSeq ∧
    (c.beaconPoint).pair = c.pair ∧ (c.beaconPoint).verdicts = c.verdicts ∧ (c.beaconPoint).small = c.small ∧
    (c.beaconPoint).large = c.large ∧ (c.beaconPoint).notice = c.notice ∧
    (c.beaconPoint).payloadWrites = c.payloadWrites ∧
    (c.beaconPoint).handlesTaken = c.handlesTaken := by
  unfold beaconPoint
  split
  · split
    · dsimp only
      split <;> simp
    · simp
  · simp

/-- What `realign` leaves unchanged. -/
@[simp] theorem Chip.realign_frame (c : Chip) (x : Station) :
    (c.realign x).inReset = c.inReset ∧ (c.realign x).self = c.self ∧ (c.realign x).now = c.now ∧
    (c.realign x).freeIndex = c.freeIndex ∧ (c.realign x).cmd = c.cmd ∧ (c.realign x).fold = c.fold ∧
    (c.realign x).intake = c.intake ∧ (c.realign x).link.state = c.link.state ∧ (c.realign x).link.settle = c.link.settle ∧
    (c.realign x).link.hold = c.link.hold ∧ (c.realign x).link.beaconCount = c.link.beaconCount ∧
    (c.realign x).link.mediumIdle = c.link.mediumIdle ∧ (c.realign x).link.receiver = c.link.receiver ∧
    (c.realign x).link.presence = c.link.presence ∧ (c.realign x).link.strike = c.link.strike ∧
    (c.realign x).link.queues = c.link.queues ∧ (c.realign x).link.wire = c.link.wire ∧ (c.realign x).slots = c.slots ∧
    (c.realign x).extFree = c.extFree ∧ (c.realign x).pendFree = c.pendFree ∧ (c.realign x).cache = c.cache ∧
    (c.realign x).retired = c.retired ∧ (c.realign x).nextSeq = c.nextSeq ∧ (c.realign x).pair = c.pair ∧
    (c.realign x).verdicts = c.verdicts ∧ (c.realign x).small = c.small ∧ (c.realign x).large = c.large ∧
    (c.realign x).notice = c.notice ∧ (c.realign x).payloadWrites = c.payloadWrites ∧
    (c.realign x).handlesTaken = c.handlesTaken := by
  unfold realign
  repeat' split
  all_goals simp

/-- What `takeBeacon` leaves unchanged. -/
@[simp] theorem Chip.takeBeacon_frame (c : Chip) (f : HeardFrame) :
    (c.takeBeacon f).inReset = c.inReset ∧ (c.takeBeacon f).self = c.self ∧ (c.takeBeacon f).now = c.now ∧
    (c.takeBeacon f).freeIndex = c.freeIndex ∧ (c.takeBeacon f).cmd = c.cmd ∧ (c.takeBeacon f).fold = c.fold ∧
    (c.takeBeacon f).intake = c.intake ∧ (c.takeBeacon f).link.state = c.link.state ∧
    (c.takeBeacon f).link.settle = c.link.settle ∧ (c.takeBeacon f).link.hold = c.link.hold ∧
    (c.takeBeacon f).link.beaconCount = c.link.beaconCount ∧ (c.takeBeacon f).link.mediumIdle = c.link.mediumIdle ∧
    (c.takeBeacon f).link.receiver = c.link.receiver ∧ (c.takeBeacon f).link.strike = c.link.strike ∧
    (c.takeBeacon f).link.queues = c.link.queues ∧ (c.takeBeacon f).link.wire = c.link.wire ∧
    (c.takeBeacon f).slots = c.slots ∧ (c.takeBeacon f).extFree = c.extFree ∧ (c.takeBeacon f).pendFree = c.pendFree ∧
    (c.takeBeacon f).cache = c.cache ∧ (c.takeBeacon f).retired = c.retired ∧ (c.takeBeacon f).nextSeq = c.nextSeq ∧
    (c.takeBeacon f).pair = c.pair ∧ (c.takeBeacon f).verdicts = c.verdicts ∧ (c.takeBeacon f).small = c.small ∧
    (c.takeBeacon f).large = c.large ∧ (c.takeBeacon f).notice = c.notice ∧
    (c.takeBeacon f).payloadWrites = c.payloadWrites ∧
    (c.takeBeacon f).handlesTaken = c.handlesTaken := by
  unfold takeBeacon
  repeat' split
  all_goals simp

/-- What `presenceExpiry` leaves unchanged. -/
@[simp] theorem Chip.presenceExpiry_frame (c : Chip) (x : Station) :
    (c.presenceExpiry x).inReset = c.inReset ∧ (c.presenceExpiry x).self = c.self ∧
    (c.presenceExpiry x).freeIndex = c.freeIndex ∧ (c.presenceExpiry x).cmd = c.cmd ∧ (c.presenceExpiry x).fold = c.fold ∧
    (c.presenceExpiry x).link.state = c.link.state ∧ (c.presenceExpiry x).link.settle = c.link.settle ∧
    (c.presenceExpiry x).link.hold = c.link.hold ∧ (c.presenceExpiry x).link.nextPoint = c.link.nextPoint ∧
    (c.presenceExpiry x).link.lastPoint = c.link.lastPoint ∧ (c.presenceExpiry x).link.beaconCount = c.link.beaconCount ∧
    (c.presenceExpiry x).link.mediumIdle = c.link.mediumIdle ∧ (c.presenceExpiry x).link.receiver = c.link.receiver ∧
    (c.presenceExpiry x).link.strike = c.link.strike ∧ (c.presenceExpiry x).verdicts = c.verdicts ∧
    (c.presenceExpiry x).notice.writing = c.notice.writing ∧ (c.presenceExpiry x).notice.poll = c.notice.poll ∧
    (c.presenceExpiry x).notice.pn = c.notice.pn ∧ (c.presenceExpiry x).notice.cn = c.notice.cn ∧
    (c.presenceExpiry x).payloadWrites = c.payloadWrites ∧
    (c.presenceExpiry x).handlesTaken = c.handlesTaken := by
  unfold presenceExpiry
  repeat' split
  all_goals simp

/-- What `collide` leaves unchanged. -/
@[simp] theorem Chip.collide_frame (c : Chip) :
    (c.collide).inReset = c.inReset ∧ (c.collide).self = c.self ∧ (c.collide).now = c.now ∧
    (c.collide).freeIndex = c.freeIndex ∧ (c.collide).cmd.staging = c.cmd.staging ∧ (c.collide).cmd.setup = c.cmd.setup ∧
    (c.collide).cmd.memory = c.cmd.memory ∧ (c.collide).cmd.restartNumber = c.cmd.restartNumber ∧
    (c.collide).fold = c.fold ∧ (c.collide).link.state = c.link.state ∧ (c.collide).link.settle = c.link.settle ∧
    (c.collide).link.hold = c.link.hold ∧ (c.collide).link.nextPoint = c.link.nextPoint ∧
    (c.collide).link.lastPoint = c.link.lastPoint ∧ (c.collide).link.beaconCount = c.link.beaconCount ∧
    (c.collide).link.presence = c.link.presence ∧ (c.collide).verdicts = c.verdicts ∧
    (c.collide).notice.writing = c.notice.writing ∧ (c.collide).notice.poll = c.notice.poll ∧
    (c.collide).notice.pn = c.notice.pn ∧ (c.collide).notice.cn = c.notice.cn ∧
    (c.collide).payloadWrites = c.payloadWrites ∧
    (c.collide).handlesTaken = c.handlesTaken := by
  unfold collide
  split
  · simp
  · dsimp only
    split
    · split
      · simp
      · split <;> simp
    · simp

/-- What `takeClaim` leaves unchanged. -/
@[simp] theorem Chip.takeClaim_frame (c : Chip) (f : HeardFrame) :
    (c.takeClaim f).inReset = c.inReset ∧ (c.takeClaim f).self = c.self ∧ (c.takeClaim f).now = c.now ∧
    (c.takeClaim f).freeIndex = c.freeIndex ∧ (c.takeClaim f).cmd = c.cmd ∧ (c.takeClaim f).fold = c.fold ∧
    (c.takeClaim f).link.state = c.link.state ∧ (c.takeClaim f).link.settle = c.link.settle ∧
    (c.takeClaim f).link.hold = c.link.hold ∧ (c.takeClaim f).link.nextPoint = c.link.nextPoint ∧
    (c.takeClaim f).link.lastPoint = c.link.lastPoint ∧ (c.takeClaim f).link.beaconCount = c.link.beaconCount ∧
    (c.takeClaim f).link.mediumIdle = c.link.mediumIdle ∧ (c.takeClaim f).link.receiver = c.link.receiver ∧
    (c.takeClaim f).link.presence = c.link.presence ∧ (c.takeClaim f).link.strike = c.link.strike ∧
    (c.takeClaim f).verdicts = c.verdicts ∧ (c.takeClaim f).notice.writing = c.notice.writing ∧
    (c.takeClaim f).notice.poll = c.notice.poll ∧ (c.takeClaim f).notice.pn = c.notice.pn ∧
    (c.takeClaim f).notice.cn = c.notice.cn ∧ (c.takeClaim f).payloadWrites = c.payloadWrites ∧
    (c.takeClaim f).handlesTaken = c.handlesTaken := by
  unfold takeClaim
  dsimp only
  split
  · simp
  · split
    · simp
    · split
      · simp
      · split <;> simp

/-- What `takeReassert` leaves unchanged. -/
@[simp] theorem Chip.takeReassert_frame (c : Chip) (f : HeardFrame) :
    (c.takeReassert f).inReset = c.inReset ∧ (c.takeReassert f).self = c.self ∧ (c.takeReassert f).now = c.now ∧
    (c.takeReassert f).freeIndex = c.freeIndex ∧ (c.takeReassert f).cmd.mode = c.cmd.mode ∧
    (c.takeReassert f).cmd.staging = c.cmd.staging ∧ (c.takeReassert f).cmd.setup = c.cmd.setup ∧
    (c.takeReassert f).cmd.memory = c.cmd.memory ∧ (c.takeReassert f).cmd.restartNumber = c.cmd.restartNumber ∧
    (c.takeReassert f).cmd.faultAtEnd = c.cmd.faultAtEnd ∧ (c.takeReassert f).cmd.faultPin = c.cmd.faultPin ∧
    (c.takeReassert f).fold = c.fold ∧ (c.takeReassert f).link.state = c.link.state ∧
    (c.takeReassert f).link.settle = c.link.settle ∧ (c.takeReassert f).link.hold = c.link.hold ∧
    (c.takeReassert f).link.nextPoint = c.link.nextPoint ∧ (c.takeReassert f).link.lastPoint = c.link.lastPoint ∧
    (c.takeReassert f).link.beaconCount = c.link.beaconCount ∧ (c.takeReassert f).link.mediumIdle = c.link.mediumIdle ∧
    (c.takeReassert f).link.receiver = c.link.receiver ∧ (c.takeReassert f).link.presence = c.link.presence ∧
    (c.takeReassert f).link.strike = c.link.strike ∧ (c.takeReassert f).verdicts = c.verdicts ∧
    (c.takeReassert f).notice.writing = c.notice.writing ∧ (c.takeReassert f).notice.poll = c.notice.poll ∧
    (c.takeReassert f).notice.pn = c.notice.pn ∧ (c.takeReassert f).notice.cn = c.notice.cn ∧
    (c.takeReassert f).payloadWrites = c.payloadWrites ∧
    (c.takeReassert f).handlesTaken = c.handlesTaken := by
  unfold takeReassert
  dsimp only
  split
  · simp
  · split
    · simp
    · split
      · split <;> simp
      · split <;> simp

/-- What `releaseFeeder` leaves unchanged. -/
@[simp] theorem Chip.releaseFeeder_frame (c : Chip) (i : Nat) (ctx : Context) (fd : Feeder) :
    (c.releaseFeeder i ctx fd).inReset = c.inReset ∧ (c.releaseFeeder i ctx fd).self = c.self ∧
    (c.releaseFeeder i ctx fd).now = c.now ∧ (c.releaseFeeder i ctx fd).freeIndex = c.freeIndex ∧
    (c.releaseFeeder i ctx fd).cmd = c.cmd ∧ (c.releaseFeeder i ctx fd).fold = c.fold ∧
    (c.releaseFeeder i ctx fd).intake = c.intake ∧ (c.releaseFeeder i ctx fd).link = c.link ∧
    (c.releaseFeeder i ctx fd).cache = c.cache ∧ (c.releaseFeeder i ctx fd).retired = c.retired ∧
    (c.releaseFeeder i ctx fd).nextSeq = c.nextSeq ∧ (c.releaseFeeder i ctx fd).pair = c.pair ∧
    (c.releaseFeeder i ctx fd).verdicts = c.verdicts ∧ (c.releaseFeeder i ctx fd).notice.queue = c.notice.queue ∧
    (c.releaseFeeder i ctx fd).notice.latches = c.notice.latches ∧
    (c.releaseFeeder i ctx fd).notice.writing = c.notice.writing ∧ (c.releaseFeeder i ctx fd).notice.poll = c.notice.poll ∧
    (c.releaseFeeder i ctx fd).notice.pn = c.notice.pn ∧ (c.releaseFeeder i ctx fd).notice.cn = c.notice.cn ∧
    (c.releaseFeeder i ctx fd).payloadWrites = c.payloadWrites ∧
    (c.releaseFeeder i ctx fd).handlesTaken = c.handlesTaken := by
  unfold releaseFeeder
  split
  · simp
  · dsimp only
    split <;> simp

/-- What `takeRelease` leaves unchanged. -/
@[simp] theorem Chip.takeRelease_frame (c : Chip) (f : HeardFrame) :
    (c.takeRelease f).inReset = c.inReset ∧ (c.takeRelease f).self = c.self ∧ (c.takeRelease f).now = c.now ∧
    (c.takeRelease f).freeIndex = c.freeIndex ∧ (c.takeRelease f).cmd.mode = c.cmd.mode ∧
    (c.takeRelease f).cmd.staging = c.cmd.staging ∧ (c.takeRelease f).cmd.setup = c.cmd.setup ∧
    (c.takeRelease f).cmd.memory = c.cmd.memory ∧ (c.takeRelease f).cmd.restartNumber = c.cmd.restartNumber ∧
    (c.takeRelease f).cmd.faultAtEnd = c.cmd.faultAtEnd ∧ (c.takeRelease f).cmd.faultPin = c.cmd.faultPin ∧
    (c.takeRelease f).fold = c.fold ∧ (c.takeRelease f).link.state = c.link.state ∧
    (c.takeRelease f).link.settle = c.link.settle ∧ (c.takeRelease f).link.hold = c.link.hold ∧
    (c.takeRelease f).link.nextPoint = c.link.nextPoint ∧ (c.takeRelease f).link.lastPoint = c.link.lastPoint ∧
    (c.takeRelease f).link.beaconCount = c.link.beaconCount ∧ (c.takeRelease f).link.mediumIdle = c.link.mediumIdle ∧
    (c.takeRelease f).link.receiver = c.link.receiver ∧ (c.takeRelease f).link.presence = c.link.presence ∧
    (c.takeRelease f).link.strike = c.link.strike ∧ (c.takeRelease f).verdicts = c.verdicts ∧
    (c.takeRelease f).notice.writing = c.notice.writing ∧ (c.takeRelease f).notice.poll = c.notice.poll ∧
    (c.takeRelease f).notice.pn = c.notice.pn ∧ (c.takeRelease f).notice.cn = c.notice.cn ∧
    (c.takeRelease f).payloadWrites = c.payloadWrites ∧
    (c.takeRelease f).handlesTaken = c.handlesTaken := by
  unfold takeRelease
  dsimp only
  split
  · simp
  · split
    · simp
    · split <;> simp

/-- What `judgeBlock` leaves unchanged. -/
@[simp] theorem Chip.judgeBlock_frame (c : Chip) (i : Nat) (x : Station) (sizeCode : Nat) (ctx : Context) (a : Anchor) (k n sum : Nat) :
    ((c.judgeBlock i x sizeCode ctx a k n sum).1).inReset = c.inReset ∧
    ((c.judgeBlock i x sizeCode ctx a k n sum).1).self = c.self ∧
    ((c.judgeBlock i x sizeCode ctx a k n sum).1).now = c.now ∧
    ((c.judgeBlock i x sizeCode ctx a k n sum).1).freeIndex = c.freeIndex ∧
    ((c.judgeBlock i x sizeCode ctx a k n sum).1).cmd.mode = c.cmd.mode ∧
    ((c.judgeBlock i x sizeCode ctx a k n sum).1).cmd.staging = c.cmd.staging ∧
    ((c.judgeBlock i x sizeCode ctx a k n sum).1).cmd.setup = c.cmd.setup ∧
    ((c.judgeBlock i x sizeCode ctx a k n sum).1).cmd.memory = c.cmd.memory ∧
    ((c.judgeBlock i x sizeCode ctx a k n sum).1).cmd.restartNumber = c.cmd.restartNumber ∧
    ((c.judgeBlock i x sizeCode ctx a k n sum).1).cmd.faultAtEnd = c.cmd.faultAtEnd ∧
    ((c.judgeBlock i x sizeCode ctx a k n sum).1).cmd.faultPin = c.cmd.faultPin ∧
    ((c.judgeBlock i x sizeCode ctx a k n sum).1).fold = c.fold ∧
    ((c.judgeBlock i x sizeCode ctx a k n sum).1).intake = c.intake ∧
    ((c.judgeBlock i x sizeCode ctx a k n sum).1).link.state = c.link.state ∧
    ((c.judgeBlock i x sizeCode ctx a k n sum).1).link.settle = c.link.settle ∧
    ((c.judgeBlock i x sizeCode ctx a k n sum).1).link.hold = c.link.hold ∧
    ((c.judgeBlock i x sizeCode ctx a k n sum).1).link.nextPoint = c.link.nextPoint ∧
    ((c.judgeBlock i x sizeCode ctx a k n sum).1).link.lastPoint = c.link.lastPoint ∧
    ((c.judgeBlock i x sizeCode ctx a k n sum).1).link.beaconCount = c.link.beaconCount ∧
    ((c.judgeBlock i x sizeCode ctx a k n sum).1).link.mediumIdle = c.link.mediumIdle ∧
    ((c.judgeBlock i x sizeCode ctx a k n sum).1).link.receiver = c.link.receiver ∧
    ((c.judgeBlock i x sizeCode ctx a k n sum).1).link.presence = c.link.presence ∧
    ((c.judgeBlock i x sizeCode ctx a k n sum).1).link.strike = c.link.strike ∧
    ((c.judgeBlock i x sizeCode ctx a k n sum).1).pendFree = c.pendFree ∧
    ((c.judgeBlock i x sizeCode ctx a k n sum).1).nextSeq = c.nextSeq ∧
    ((c.judgeBlock i x sizeCode ctx a k n sum).1).pair = c.pair ∧
    ((c.judgeBlock i x sizeCode ctx a k n sum).1).verdicts = c.verdicts ∧
    ((c.judgeBlock i x sizeCode ctx a k n sum).1).small = c.small ∧
    ((c.judgeBlock i x sizeCode ctx a k n sum).1).large = c.large ∧
    ((c.judgeBlock i x sizeCode ctx a k n sum).1).notice.latches = c.notice.latches ∧
    ((c.judgeBlock i x sizeCode ctx a k n sum).1).notice.writing = c.notice.writing ∧
    ((c.judgeBlock i x sizeCode ctx a k n sum).1).notice.poll = c.notice.poll ∧
    ((c.judgeBlock i x sizeCode ctx a k n sum).1).notice.pn = c.notice.pn ∧
    ((c.judgeBlock i x sizeCode ctx a k n sum).1).notice.cn = c.notice.cn ∧
    ((c.judgeBlock i x sizeCode ctx a k n sum).1).payloadWrites = c.payloadWrites ∧
    ((c.judgeBlock i x sizeCode ctx a k n sum).1).handlesTaken = c.handlesTaken := by
  unfold judgeBlock
  repeat' split
  all_goals simp

/-- What `judgeClose` leaves unchanged. -/
@[simp] theorem Chip.judgeClose_frame (c : Chip) (i l e k : Nat) :
    ((c.judgeClose i l e k).1).inReset = c.inReset ∧ ((c.judgeClose i l e k).1).self = c.self ∧
    ((c.judgeClose i l e k).1).now = c.now ∧ ((c.judgeClose i l e k).1).freeIndex = c.freeIndex ∧
    ((c.judgeClose i l e k).1).cmd.mode = c.cmd.mode ∧ ((c.judgeClose i l e k).1).cmd.staging = c.cmd.staging ∧
    ((c.judgeClose i l e k).1).cmd.setup = c.cmd.setup ∧ ((c.judgeClose i l e k).1).cmd.memory = c.cmd.memory ∧
    ((c.judgeClose i l e k).1).cmd.restartNumber = c.cmd.restartNumber ∧
    ((c.judgeClose i l e k).1).cmd.faultAtEnd = c.cmd.faultAtEnd ∧
    ((c.judgeClose i l e k).1).cmd.faultPin = c.cmd.faultPin ∧ ((c.judgeClose i l e k).1).fold = c.fold ∧
    ((c.judgeClose i l e k).1).intake = c.intake ∧ ((c.judgeClose i l e k).1).link.state = c.link.state ∧
    ((c.judgeClose i l e k).1).link.settle = c.link.settle ∧ ((c.judgeClose i l e k).1).link.hold = c.link.hold ∧
    ((c.judgeClose i l e k).1).link.nextPoint = c.link.nextPoint ∧
    ((c.judgeClose i l e k).1).link.lastPoint = c.link.lastPoint ∧
    ((c.judgeClose i l e k).1).link.beaconCount = c.link.beaconCount ∧
    ((c.judgeClose i l e k).1).link.mediumIdle = c.link.mediumIdle ∧
    ((c.judgeClose i l e k).1).link.receiver = c.link.receiver ∧
    ((c.judgeClose i l e k).1).link.presence = c.link.presence ∧ ((c.judgeClose i l e k).1).link.strike = c.link.strike ∧
    ((c.judgeClose i l e k).1).pendFree = c.pendFree ∧ ((c.judgeClose i l e k).1).nextSeq = c.nextSeq ∧
    ((c.judgeClose i l e k).1).pair = c.pair ∧ ((c.judgeClose i l e k).1).verdicts = c.verdicts ∧
    ((c.judgeClose i l e k).1).small = c.small ∧ ((c.judgeClose i l e k).1).large = c.large ∧
    ((c.judgeClose i l e k).1).notice.latches = c.notice.latches ∧
    ((c.judgeClose i l e k).1).notice.writing = c.notice.writing ∧ ((c.judgeClose i l e k).1).notice.poll = c.notice.poll ∧
    ((c.judgeClose i l e k).1).notice.pn = c.notice.pn ∧ ((c.judgeClose i l e k).1).notice.cn = c.notice.cn ∧
    ((c.judgeClose i l e k).1).payloadWrites = c.payloadWrites ∧
    ((c.judgeClose i l e k).1).handlesTaken = c.handlesTaken := by
  unfold judgeClose
  dsimp only
  split <;> simp

/-- What `judgeEntries` leaves unchanged. -/
@[simp] theorem Chip.judgeEntries_frame (i : Nat) (x : Station) (sizeCode : Nat) (es : List TallyEntry) (c : Chip) :
    ((judgeEntries i x sizeCode es c).1).inReset = c.inReset ∧ ((judgeEntries i x sizeCode es c).1).self = c.self ∧
    ((judgeEntries i x sizeCode es c).1).now = c.now ∧ ((judgeEntries i x sizeCode es c).1).freeIndex = c.freeIndex ∧
    ((judgeEntries i x sizeCode es c).1).cmd.mode = c.cmd.mode ∧
    ((judgeEntries i x sizeCode es c).1).cmd.staging = c.cmd.staging ∧
    ((judgeEntries i x sizeCode es c).1).cmd.setup = c.cmd.setup ∧
    ((judgeEntries i x sizeCode es c).1).cmd.memory = c.cmd.memory ∧
    ((judgeEntries i x sizeCode es c).1).cmd.restartNumber = c.cmd.restartNumber ∧
    ((judgeEntries i x sizeCode es c).1).cmd.faultAtEnd = c.cmd.faultAtEnd ∧
    ((judgeEntries i x sizeCode es c).1).cmd.faultPin = c.cmd.faultPin ∧
    ((judgeEntries i x sizeCode es c).1).fold = c.fold ∧ ((judgeEntries i x sizeCode es c).1).intake = c.intake ∧
    ((judgeEntries i x sizeCode es c).1).link.state = c.link.state ∧
    ((judgeEntries i x sizeCode es c).1).link.settle = c.link.settle ∧
    ((judgeEntries i x sizeCode es c).1).link.hold = c.link.hold ∧
    ((judgeEntries i x sizeCode es c).1).link.nextPoint = c.link.nextPoint ∧
    ((judgeEntries i x sizeCode es c).1).link.lastPoint = c.link.lastPoint ∧
    ((judgeEntries i x sizeCode es c).1).link.beaconCount = c.link.beaconCount ∧
    ((judgeEntries i x sizeCode es c).1).link.mediumIdle = c.link.mediumIdle ∧
    ((judgeEntries i x sizeCode es c).1).link.receiver = c.link.receiver ∧
    ((judgeEntries i x sizeCode es c).1).link.presence = c.link.presence ∧
    ((judgeEntries i x sizeCode es c).1).link.strike = c.link.strike ∧
    ((judgeEntries i x sizeCode es c).1).pendFree = c.pendFree ∧ ((judgeEntries i x sizeCode es c).1).nextSeq = c.nextSeq ∧
    ((judgeEntries i x sizeCode es c).1).pair = c.pair ∧ ((judgeEntries i x sizeCode es c).1).verdicts = c.verdicts ∧
    ((judgeEntries i x sizeCode es c).1).small = c.small ∧ ((judgeEntries i x sizeCode es c).1).large = c.large ∧
    ((judgeEntries i x sizeCode es c).1).notice.latches = c.notice.latches ∧
    ((judgeEntries i x sizeCode es c).1).notice.writing = c.notice.writing ∧
    ((judgeEntries i x sizeCode es c).1).notice.poll = c.notice.poll ∧
    ((judgeEntries i x sizeCode es c).1).notice.pn = c.notice.pn ∧
    ((judgeEntries i x sizeCode es c).1).notice.cn = c.notice.cn ∧
    ((judgeEntries i x sizeCode es c).1).payloadWrites = c.payloadWrites ∧
    ((judgeEntries i x sizeCode es c).1).handlesTaken = c.handlesTaken := by
  induction es generalizing c with
  | nil => simp [judgeEntries]
  | cons e es ih =>
    unfold judgeEntries
    dsimp only
    split
    · simp [ih]
    · split <;> simp [ih]

/-- What `judgeTally` leaves unchanged. -/
@[simp] theorem Chip.judgeTally_frame (c : Chip) (x : Station) (t : TallyBody) :
    ((c.judgeTally x t).1).inReset = c.inReset ∧ ((c.judgeTally x t).1).self = c.self ∧ ((c.judgeTally x t).1).now = c.now ∧
    ((c.judgeTally x t).1).freeIndex = c.freeIndex ∧ ((c.judgeTally x t).1).cmd.mode = c.cmd.mode ∧
    ((c.judgeTally x t).1).cmd.staging = c.cmd.staging ∧ ((c.judgeTally x t).1).cmd.setup = c.cmd.setup ∧
    ((c.judgeTally x t).1).cmd.memory = c.cmd.memory ∧ ((c.judgeTally x t).1).cmd.restartNumber = c.cmd.restartNumber ∧
    ((c.judgeTally x t).1).cmd.faultAtEnd = c.cmd.faultAtEnd ∧ ((c.judgeTally x t).1).cmd.faultPin = c.cmd.faultPin ∧
    ((c.judgeTally x t).1).fold = c.fold ∧ ((c.judgeTally x t).1).intake = c.intake ∧
    ((c.judgeTally x t).1).link.state = c.link.state ∧ ((c.judgeTally x t).1).link.settle = c.link.settle ∧
    ((c.judgeTally x t).1).link.hold = c.link.hold ∧ ((c.judgeTally x t).1).link.nextPoint = c.link.nextPoint ∧
    ((c.judgeTally x t).1).link.lastPoint = c.link.lastPoint ∧
    ((c.judgeTally x t).1).link.beaconCount = c.link.beaconCount ∧
    ((c.judgeTally x t).1).link.mediumIdle = c.link.mediumIdle ∧ ((c.judgeTally x t).1).link.receiver = c.link.receiver ∧
    ((c.judgeTally x t).1).link.presence = c.link.presence ∧ ((c.judgeTally x t).1).link.strike = c.link.strike ∧
    ((c.judgeTally x t).1).pendFree = c.pendFree ∧ ((c.judgeTally x t).1).nextSeq = c.nextSeq ∧
    ((c.judgeTally x t).1).pair = c.pair ∧ ((c.judgeTally x t).1).verdicts = c.verdicts ∧
    ((c.judgeTally x t).1).small = c.small ∧ ((c.judgeTally x t).1).large = c.large ∧
    ((c.judgeTally x t).1).notice.latches = c.notice.latches ∧ ((c.judgeTally x t).1).notice.writing = c.notice.writing ∧
    ((c.judgeTally x t).1).notice.poll = c.notice.poll ∧ ((c.judgeTally x t).1).notice.pn = c.notice.pn ∧
    ((c.judgeTally x t).1).notice.cn = c.notice.cn ∧ ((c.judgeTally x t).1).payloadWrites = c.payloadWrites ∧
    ((c.judgeTally x t).1).handlesTaken = c.handlesTaken := by
  unfold judgeTally
  repeat' split
  all_goals simp

/-- What `setVerdict` leaves unchanged. -/
@[simp] theorem Chip.setVerdict_frame (c : Chip) (x : Station) (v : VerdictBody) :
    (c.setVerdict x v).inReset = c.inReset ∧ (c.setVerdict x v).self = c.self ∧ (c.setVerdict x v).now = c.now ∧
    (c.setVerdict x v).freeIndex = c.freeIndex ∧ (c.setVerdict x v).cmd = c.cmd ∧ (c.setVerdict x v).fold = c.fold ∧
    (c.setVerdict x v).intake = c.intake ∧ (c.setVerdict x v).link = c.link ∧ (c.setVerdict x v).slots = c.slots ∧
    (c.setVerdict x v).extFree = c.extFree ∧ (c.setVerdict x v).pendFree = c.pendFree ∧ (c.setVerdict x v).cache = c.cache ∧
    (c.setVerdict x v).retired = c.retired ∧ (c.setVerdict x v).nextSeq = c.nextSeq ∧ (c.setVerdict x v).pair = c.pair ∧
    (c.setVerdict x v).small = c.small ∧ (c.setVerdict x v).large = c.large ∧ (c.setVerdict x v).notice = c.notice ∧
    (c.setVerdict x v).payloadWrites = c.payloadWrites ∧
    (c.setVerdict x v).handlesTaken = c.handlesTaken := by
  simp [setVerdict]

/-- What `answerTally` leaves unchanged. -/
@[simp] theorem Chip.answerTally_frame (c : Chip) (x : Station) (t : TallyBody) :
    (c.answerTally x t).inReset = c.inReset ∧ (c.answerTally x t).self = c.self ∧ (c.answerTally x t).now = c.now ∧
    (c.answerTally x t).freeIndex = c.freeIndex ∧ (c.answerTally x t).cmd.mode = c.cmd.mode ∧
    (c.answerTally x t).cmd.staging = c.cmd.staging ∧ (c.answerTally x t).cmd.setup = c.cmd.setup ∧
    (c.answerTally x t).cmd.memory = c.cmd.memory ∧ (c.answerTally x t).cmd.restartNumber = c.cmd.restartNumber ∧
    (c.answerTally x t).cmd.faultAtEnd = c.cmd.faultAtEnd ∧ (c.answerTally x t).cmd.faultPin = c.cmd.faultPin ∧
    (c.answerTally x t).fold = c.fold ∧ (c.answerTally x t).intake = c.intake ∧
    (c.answerTally x t).link.state = c.link.state ∧ (c.answerTally x t).link.settle = c.link.settle ∧
    (c.answerTally x t).link.hold = c.link.hold ∧ (c.answerTally x t).link.nextPoint = c.link.nextPoint ∧
    (c.answerTally x t).link.lastPoint = c.link.lastPoint ∧ (c.answerTally x t).link.beaconCount = c.link.beaconCount ∧
    (c.answerTally x t).link.mediumIdle = c.link.mediumIdle ∧ (c.answerTally x t).link.receiver = c.link.receiver ∧
    (c.answerTally x t).link.presence = c.link.presence ∧ (c.answerTally x t).link.strike = c.link.strike ∧
    (c.answerTally x t).pendFree = c.pendFree ∧ (c.answerTally x t).nextSeq = c.nextSeq ∧
    (c.answerTally x t).pair = c.pair ∧ (c.answerTally x t).small = c.small ∧ (c.answerTally x t).large = c.large ∧
    (c.answerTally x t).notice.latches = c.notice.latches ∧ (c.answerTally x t).notice.writing = c.notice.writing ∧
    (c.answerTally x t).notice.poll = c.notice.poll ∧ (c.answerTally x t).notice.pn = c.notice.pn ∧
    (c.answerTally x t).notice.cn = c.notice.cn ∧ (c.answerTally x t).payloadWrites = c.payloadWrites ∧
    (c.answerTally x t).handlesTaken = c.handlesTaken := by
  unfold answerTally
  dsimp only
  split
  · split
    · simp
    · split <;> simp
  · split <;> simp

/-- What `takeTally` leaves unchanged. -/
@[simp] theorem Chip.takeTally_frame (c : Chip) (f : HeardFrame) :
    (c.takeTally f).inReset = c.inReset ∧ (c.takeTally f).self = c.self ∧ (c.takeTally f).now = c.now ∧
    (c.takeTally f).freeIndex = c.freeIndex ∧ (c.takeTally f).cmd.mode = c.cmd.mode ∧
    (c.takeTally f).cmd.staging = c.cmd.staging ∧ (c.takeTally f).cmd.setup = c.cmd.setup ∧
    (c.takeTally f).cmd.memory = c.cmd.memory ∧ (c.takeTally f).cmd.restartNumber = c.cmd.restartNumber ∧
    (c.takeTally f).cmd.faultAtEnd = c.cmd.faultAtEnd ∧ (c.takeTally f).cmd.faultPin = c.cmd.faultPin ∧
    (c.takeTally f).fold = c.fold ∧ (c.takeTally f).intake = c.intake ∧ (c.takeTally f).link.state = c.link.state ∧
    (c.takeTally f).link.settle = c.link.settle ∧ (c.takeTally f).link.hold = c.link.hold ∧
    (c.takeTally f).link.nextPoint = c.link.nextPoint ∧ (c.takeTally f).link.lastPoint = c.link.lastPoint ∧
    (c.takeTally f).link.beaconCount = c.link.beaconCount ∧ (c.takeTally f).link.mediumIdle = c.link.mediumIdle ∧
    (c.takeTally f).link.receiver = c.link.receiver ∧ (c.takeTally f).link.presence = c.link.presence ∧
    (c.takeTally f).link.strike = c.link.strike ∧ (c.takeTally f).pendFree = c.pendFree ∧
    (c.takeTally f).nextSeq = c.nextSeq ∧ (c.takeTally f).pair = c.pair ∧ (c.takeTally f).small = c.small ∧
    (c.takeTally f).large = c.large ∧ (c.takeTally f).notice.latches = c.notice.latches ∧
    (c.takeTally f).notice.writing = c.notice.writing ∧ (c.takeTally f).notice.poll = c.notice.poll ∧
    (c.takeTally f).notice.pn = c.notice.pn ∧ (c.takeTally f).notice.cn = c.notice.cn ∧
    (c.takeTally f).payloadWrites = c.payloadWrites ∧
    (c.takeTally f).handlesTaken = c.handlesTaken := by
  unfold takeTally
  repeat' split
  all_goals simp

/-- What `addNoticed` leaves unchanged. -/
@[simp] theorem Chip.addNoticed_frame (c : Chip) (i : Nat) :
    (c.addNoticed i).inReset = c.inReset ∧ (c.addNoticed i).self = c.self ∧ (c.addNoticed i).now = c.now ∧
    (c.addNoticed i).freeIndex = c.freeIndex ∧ (c.addNoticed i).cmd = c.cmd ∧ (c.addNoticed i).fold = c.fold ∧
    (c.addNoticed i).intake = c.intake ∧ (c.addNoticed i).link = c.link ∧ (c.addNoticed i).extFree = c.extFree ∧
    (c.addNoticed i).pendFree = c.pendFree ∧ (c.addNoticed i).cache = c.cache ∧ (c.addNoticed i).retired = c.retired ∧
    (c.addNoticed i).nextSeq = c.nextSeq ∧ (c.addNoticed i).pair = c.pair ∧ (c.addNoticed i).verdicts = c.verdicts ∧
    (c.addNoticed i).small = c.small ∧ (c.addNoticed i).large = c.large ∧ (c.addNoticed i).notice = c.notice ∧
    (c.addNoticed i).payloadWrites = c.payloadWrites ∧
    (c.addNoticed i).handlesTaken = c.handlesTaken := by
  unfold addNoticed
  repeat' split
  all_goals simp

/-- What `applyCode` leaves unchanged. -/
@[simp] theorem Chip.applyCode_frame (i : Nat) (t : Tag) (y : Station) (c : Chip) (p : Entry × EntryCode) :
    (applyCode i t y c p).inReset = c.inReset ∧ (applyCode i t y c p).self = c.self ∧ (applyCode i t y c p).now = c.now ∧
    (applyCode i t y c p).freeIndex = c.freeIndex ∧ (applyCode i t y c p).cmd = c.cmd ∧
    (applyCode i t y c p).fold = c.fold ∧ (applyCode i t y c p).intake = c.intake ∧ (applyCode i t y c p).link = c.link ∧
    (applyCode i t y c p).pendFree = c.pendFree ∧ (applyCode i t y c p).cache = c.cache ∧
    (applyCode i t y c p).retired = c.retired ∧ (applyCode i t y c p).nextSeq = c.nextSeq ∧
    (applyCode i t y c p).pair = c.pair ∧ (applyCode i t y c p).verdicts = c.verdicts ∧
    (applyCode i t y c p).notice.re = c.notice.re ∧ (applyCode i t y c p).notice.latches = c.notice.latches ∧
    (applyCode i t y c p).notice.writing = c.notice.writing ∧ (applyCode i t y c p).notice.poll = c.notice.poll ∧
    (applyCode i t y c p).notice.pn = c.notice.pn ∧ (applyCode i t y c p).notice.cn = c.notice.cn ∧
    (applyCode i t y c p).payloadWrites = c.payloadWrites ∧
    (applyCode i t y c p).handlesTaken = c.handlesTaken := by
  unfold applyCode
  repeat' split
  all_goals simp

/-- What `applyCodes` leaves unchanged. -/
@[simp] theorem Chip.applyCodes_frame (i : Nat) (t : Tag) (y : Station) (l : List (Entry × EntryCode)) (c : Chip) :
    (l.foldl (applyCode i t y) c).inReset = c.inReset ∧ (l.foldl (applyCode i t y) c).self = c.self ∧
    (l.foldl (applyCode i t y) c).now = c.now ∧ (l.foldl (applyCode i t y) c).freeIndex = c.freeIndex ∧
    (l.foldl (applyCode i t y) c).cmd = c.cmd ∧ (l.foldl (applyCode i t y) c).fold = c.fold ∧
    (l.foldl (applyCode i t y) c).intake = c.intake ∧ (l.foldl (applyCode i t y) c).link = c.link ∧
    (l.foldl (applyCode i t y) c).pendFree = c.pendFree ∧ (l.foldl (applyCode i t y) c).cache = c.cache ∧
    (l.foldl (applyCode i t y) c).retired = c.retired ∧ (l.foldl (applyCode i t y) c).nextSeq = c.nextSeq ∧
    (l.foldl (applyCode i t y) c).pair = c.pair ∧ (l.foldl (applyCode i t y) c).verdicts = c.verdicts ∧
    (l.foldl (applyCode i t y) c).notice.re = c.notice.re ∧
    (l.foldl (applyCode i t y) c).notice.latches = c.notice.latches ∧
    (l.foldl (applyCode i t y) c).notice.writing = c.notice.writing ∧
    (l.foldl (applyCode i t y) c).notice.poll = c.notice.poll ∧ (l.foldl (applyCode i t y) c).notice.pn = c.notice.pn ∧
    (l.foldl (applyCode i t y) c).notice.cn = c.notice.cn ∧
    (l.foldl (applyCode i t y) c).payloadWrites = c.payloadWrites ∧
    (l.foldl (applyCode i t y) c).handlesTaken = c.handlesTaken := by
  induction l generalizing c with
  | nil => simp
  | cons b l ih => have h := ih (applyCode i t y c b); simpa using h

/-- What `resolveEntries` leaves unchanged. -/
@[simp] theorem Chip.resolveEntries_frame (c : Chip) (i : Nat) (t : Tally) :
    (c.resolveEntries i t).inReset = c.inReset ∧ (c.resolveEntries i t).self = c.self ∧ (c.resolveEntries i t).now = c.now ∧
    (c.resolveEntries i t).freeIndex = c.freeIndex ∧ (c.resolveEntries i t).cmd = c.cmd ∧
    (c.resolveEntries i t).fold = c.fold ∧ (c.resolveEntries i t).intake = c.intake ∧ (c.resolveEntries i t).link = c.link ∧
    (c.resolveEntries i t).extFree = c.extFree ∧ (c.resolveEntries i t).cache = c.cache ∧
    (c.resolveEntries i t).retired = c.retired ∧ (c.resolveEntries i t).nextSeq = c.nextSeq ∧
    (c.resolveEntries i t).verdicts = c.verdicts ∧ (c.resolveEntries i t).small = c.small ∧
    (c.resolveEntries i t).large = c.large ∧ (c.resolveEntries i t).notice = c.notice ∧
    (c.resolveEntries i t).payloadWrites = c.payloadWrites ∧
    (c.resolveEntries i t).handlesTaken = c.handlesTaken := by
  unfold resolveEntries
  repeat' split
  all_goals simp

/-- What `takeCodes` leaves unchanged. -/
@[simp] theorem Chip.takeCodes_frame (c : Chip) (i : Nat) (ctx : Context) (f : Feeder) (t : Tally) (codes : List EntryCode) :
    (c.takeCodes i ctx f t codes).inReset = c.inReset ∧ (c.takeCodes i ctx f t codes).self = c.self ∧
    (c.takeCodes i ctx f t codes).now = c.now ∧ (c.takeCodes i ctx f t codes).freeIndex = c.freeIndex ∧
    (c.takeCodes i ctx f t codes).cmd = c.cmd ∧ (c.takeCodes i ctx f t codes).fold = c.fold ∧
    (c.takeCodes i ctx f t codes).intake = c.intake ∧ (c.takeCodes i ctx f t codes).link = c.link ∧
    (c.takeCodes i ctx f t codes).cache = c.cache ∧ (c.takeCodes i ctx f t codes).retired = c.retired ∧
    (c.takeCodes i ctx f t codes).nextSeq = c.nextSeq ∧ (c.takeCodes i ctx f t codes).verdicts = c.verdicts ∧
    (c.takeCodes i ctx f t codes).notice.latches = c.notice.latches ∧
    (c.takeCodes i ctx f t codes).notice.writing = c.notice.writing ∧
    (c.takeCodes i ctx f t codes).notice.poll = c.notice.poll ∧ (c.takeCodes i ctx f t codes).notice.pn = c.notice.pn ∧
    (c.takeCodes i ctx f t codes).notice.cn = c.notice.cn ∧
    (c.takeCodes i ctx f t codes).payloadWrites = c.payloadWrites ∧
    (c.takeCodes i ctx f t codes).handlesTaken = c.handlesTaken := by
  unfold takeCodes
  dsimp only
  split <;> simp

/-- What `takeHold` leaves unchanged. -/
@[simp] theorem Chip.takeHold_frame (c : Chip) (i : Nat) (t : Tally) :
    (c.takeHold i t).inReset = c.inReset ∧ (c.takeHold i t).self = c.self ∧ (c.takeHold i t).now = c.now ∧
    (c.takeHold i t).freeIndex = c.freeIndex ∧ (c.takeHold i t).cmd = c.cmd ∧ (c.takeHold i t).fold = c.fold ∧
    (c.takeHold i t).intake = c.intake ∧ (c.takeHold i t).link = c.link ∧ (c.takeHold i t).extFree = c.extFree ∧
    (c.takeHold i t).pendFree = c.pendFree ∧ (c.takeHold i t).cache = c.cache ∧ (c.takeHold i t).retired = c.retired ∧
    (c.takeHold i t).nextSeq = c.nextSeq ∧ (c.takeHold i t).pair = c.pair ∧ (c.takeHold i t).verdicts = c.verdicts ∧
    (c.takeHold i t).small = c.small ∧ (c.takeHold i t).large = c.large ∧ (c.takeHold i t).notice = c.notice ∧
    (c.takeHold i t).payloadWrites = c.payloadWrites ∧
    (c.takeHold i t).handlesTaken = c.handlesTaken := by
  unfold takeHold
  repeat' split
  all_goals simp

/-- What `takeRetired` leaves unchanged. -/
@[simp] theorem Chip.takeRetired_frame (c : Chip) (i : Nat) (t : Tally) :
    (c.takeRetired i t).inReset = c.inReset ∧ (c.takeRetired i t).self = c.self ∧ (c.takeRetired i t).now = c.now ∧
    (c.takeRetired i t).freeIndex = c.freeIndex ∧ (c.takeRetired i t).cmd = c.cmd ∧ (c.takeRetired i t).fold = c.fold ∧
    (c.takeRetired i t).intake = c.intake ∧ (c.takeRetired i t).link = c.link ∧ (c.takeRetired i t).nextSeq = c.nextSeq ∧
    (c.takeRetired i t).verdicts = c.verdicts ∧ (c.takeRetired i t).notice.queue = c.notice.queue ∧
    (c.takeRetired i t).notice.latches = c.notice.latches ∧ (c.takeRetired i t).notice.writing = c.notice.writing ∧
    (c.takeRetired i t).notice.poll = c.notice.poll ∧ (c.takeRetired i t).notice.pn = c.notice.pn ∧
    (c.takeRetired i t).notice.cn = c.notice.cn ∧ (c.takeRetired i t).payloadWrites = c.payloadWrites ∧
    (c.takeRetired i t).handlesTaken = c.handlesTaken := by
  unfold takeRetired
  repeat' split
  all_goals simp

/-- What `takeUnknown` leaves unchanged. -/
@[simp] theorem Chip.takeUnknown_frame (c : Chip) (i : Nat) (f : Feeder) :
    (c.takeUnknown i f).inReset = c.inReset ∧ (c.takeUnknown i f).self = c.self ∧ (c.takeUnknown i f).now = c.now ∧
    (c.takeUnknown i f).freeIndex = c.freeIndex ∧ (c.takeUnknown i f).cmd.mode = c.cmd.mode ∧
    (c.takeUnknown i f).cmd.staging = c.cmd.staging ∧ (c.takeUnknown i f).cmd.setup = c.cmd.setup ∧
    (c.takeUnknown i f).cmd.memory = c.cmd.memory ∧ (c.takeUnknown i f).cmd.restartNumber = c.cmd.restartNumber ∧
    (c.takeUnknown i f).cmd.faultAtEnd = c.cmd.faultAtEnd ∧ (c.takeUnknown i f).cmd.faultPin = c.cmd.faultPin ∧
    (c.takeUnknown i f).fold = c.fold ∧ (c.takeUnknown i f).intake = c.intake ∧
    (c.takeUnknown i f).link.state = c.link.state ∧ (c.takeUnknown i f).link.settle = c.link.settle ∧
    (c.takeUnknown i f).link.hold = c.link.hold ∧ (c.takeUnknown i f).link.nextPoint = c.link.nextPoint ∧
    (c.takeUnknown i f).link.lastPoint = c.link.lastPoint ∧ (c.takeUnknown i f).link.beaconCount = c.link.beaconCount ∧
    (c.takeUnknown i f).link.mediumIdle = c.link.mediumIdle ∧ (c.takeUnknown i f).link.receiver = c.link.receiver ∧
    (c.takeUnknown i f).link.presence = c.link.presence ∧ (c.takeUnknown i f).link.strike = c.link.strike ∧
    (c.takeUnknown i f).nextSeq = c.nextSeq ∧ (c.takeUnknown i f).verdicts = c.verdicts ∧
    (c.takeUnknown i f).notice.latches = c.notice.latches ∧ (c.takeUnknown i f).notice.writing = c.notice.writing ∧
    (c.takeUnknown i f).notice.poll = c.notice.poll ∧ (c.takeUnknown i f).notice.pn = c.notice.pn ∧
    (c.takeUnknown i f).notice.cn = c.notice.cn ∧ (c.takeUnknown i f).payloadWrites = c.payloadWrites ∧
    (c.takeUnknown i f).handlesTaken = c.handlesTaken := by
  unfold takeUnknown
  repeat' split
  all_goals simp

/-- What `retarget` leaves unchanged. -/
@[simp] theorem Chip.retarget_frame (c : Chip) (i : Nat) (t : Tally) (x : Station) :
    (c.retarget i t x).inReset = c.inReset ∧ (c.retarget i t x).self = c.self ∧ (c.retarget i t x).now = c.now ∧
    (c.retarget i t x).freeIndex = c.freeIndex ∧ (c.retarget i t x).cmd = c.cmd ∧ (c.retarget i t x).fold = c.fold ∧
    (c.retarget i t x).intake = c.intake ∧ (c.retarget i t x).link = c.link ∧ (c.retarget i t x).extFree = c.extFree ∧
    (c.retarget i t x).pendFree = c.pendFree ∧ (c.retarget i t x).cache = c.cache ∧ (c.retarget i t x).retired = c.retired ∧
    (c.retarget i t x).nextSeq = c.nextSeq ∧ (c.retarget i t x).verdicts = c.verdicts ∧ (c.retarget i t x).small = c.small ∧
    (c.retarget i t x).large = c.large ∧ (c.retarget i t x).notice = c.notice ∧
    (c.retarget i t x).payloadWrites = c.payloadWrites ∧
    (c.retarget i t x).handlesTaken = c.handlesTaken := by
  unfold retarget
  repeat' split
  all_goals simp

/-- What `actVerdict` leaves unchanged. -/
@[simp] theorem Chip.actVerdict_frame (c : Chip) (i : Nat) (ctx : Context) (f : Feeder) (t : Tally) (v : Verdict) :
    (c.actVerdict i ctx f t v).inReset = c.inReset ∧ (c.actVerdict i ctx f t v).self = c.self ∧
    (c.actVerdict i ctx f t v).now = c.now ∧ (c.actVerdict i ctx f t v).freeIndex = c.freeIndex ∧
    (c.actVerdict i ctx f t v).cmd.mode = c.cmd.mode ∧ (c.actVerdict i ctx f t v).cmd.staging = c.cmd.staging ∧
    (c.actVerdict i ctx f t v).cmd.setup = c.cmd.setup ∧ (c.actVerdict i ctx f t v).cmd.memory = c.cmd.memory ∧
    (c.actVerdict i ctx f t v).cmd.restartNumber = c.cmd.restartNumber ∧
    (c.actVerdict i ctx f t v).cmd.faultAtEnd = c.cmd.faultAtEnd ∧
    (c.actVerdict i ctx f t v).cmd.faultPin = c.cmd.faultPin ∧ (c.actVerdict i ctx f t v).fold = c.fold ∧
    (c.actVerdict i ctx f t v).intake = c.intake ∧ (c.actVerdict i ctx f t v).link.state = c.link.state ∧
    (c.actVerdict i ctx f t v).link.settle = c.link.settle ∧ (c.actVerdict i ctx f t v).link.hold = c.link.hold ∧
    (c.actVerdict i ctx f t v).link.nextPoint = c.link.nextPoint ∧
    (c.actVerdict i ctx f t v).link.lastPoint = c.link.lastPoint ∧
    (c.actVerdict i ctx f t v).link.beaconCount = c.link.beaconCount ∧
    (c.actVerdict i ctx f t v).link.mediumIdle = c.link.mediumIdle ∧
    (c.actVerdict i ctx f t v).link.receiver = c.link.receiver ∧
    (c.actVerdict i ctx f t v).link.presence = c.link.presence ∧ (c.actVerdict i ctx f t v).link.strike = c.link.strike ∧
    (c.actVerdict i ctx f t v).nextSeq = c.nextSeq ∧ (c.actVerdict i ctx f t v).verdicts = c.verdicts ∧
    (c.actVerdict i ctx f t v).notice.latches = c.notice.latches ∧
    (c.actVerdict i ctx f t v).notice.writing = c.notice.writing ∧ (c.actVerdict i ctx f t v).notice.poll = c.notice.poll ∧
    (c.actVerdict i ctx f t v).notice.pn = c.notice.pn ∧ (c.actVerdict i ctx f t v).notice.cn = c.notice.cn ∧
    (c.actVerdict i ctx f t v).payloadWrites = c.payloadWrites ∧
    (c.actVerdict i ctx f t v).handlesTaken = c.handlesTaken := by
  unfold actVerdict
  repeat' split
  all_goals simp

/-- What `takeMatched` leaves unchanged. -/
@[simp] theorem Chip.takeMatched_frame (c : Chip) (i : Nat) (ctx : Context) (f : Feeder) (t : Tally) (v : Verdict) :
    (c.takeMatched i ctx f t v).inReset = c.inReset ∧ (c.takeMatched i ctx f t v).self = c.self ∧
    (c.takeMatched i ctx f t v).now = c.now ∧ (c.takeMatched i ctx f t v).freeIndex = c.freeIndex ∧
    (c.takeMatched i ctx f t v).cmd.mode = c.cmd.mode ∧ (c.takeMatched i ctx f t v).cmd.staging = c.cmd.staging ∧
    (c.takeMatched i ctx f t v).cmd.setup = c.cmd.setup ∧ (c.takeMatched i ctx f t v).cmd.memory = c.cmd.memory ∧
    (c.takeMatched i ctx f t v).cmd.restartNumber = c.cmd.restartNumber ∧
    (c.takeMatched i ctx f t v).cmd.faultAtEnd = c.cmd.faultAtEnd ∧
    (c.takeMatched i ctx f t v).cmd.faultPin = c.cmd.faultPin ∧ (c.takeMatched i ctx f t v).fold = c.fold ∧
    (c.takeMatched i ctx f t v).link.state = c.link.state ∧ (c.takeMatched i ctx f t v).link.settle = c.link.settle ∧
    (c.takeMatched i ctx f t v).link.hold = c.link.hold ∧ (c.takeMatched i ctx f t v).link.nextPoint = c.link.nextPoint ∧
    (c.takeMatched i ctx f t v).link.lastPoint = c.link.lastPoint ∧
    (c.takeMatched i ctx f t v).link.beaconCount = c.link.beaconCount ∧
    (c.takeMatched i ctx f t v).link.mediumIdle = c.link.mediumIdle ∧
    (c.takeMatched i ctx f t v).link.receiver = c.link.receiver ∧
    (c.takeMatched i ctx f t v).link.presence = c.link.presence ∧ (c.takeMatched i ctx f t v).link.strike = c.link.strike ∧
    (c.takeMatched i ctx f t v).verdicts = c.verdicts ∧ (c.takeMatched i ctx f t v).notice.writing = c.notice.writing ∧
    (c.takeMatched i ctx f t v).notice.poll = c.notice.poll ∧ (c.takeMatched i ctx f t v).notice.pn = c.notice.pn ∧
    (c.takeMatched i ctx f t v).notice.cn = c.notice.cn ∧ (c.takeMatched i ctx f t v).payloadWrites = c.payloadWrites ∧
    (c.takeMatched i ctx f t v).handlesTaken = c.handlesTaken := by
  unfold takeMatched
  dsimp only
  split <;> simp

/-- What `takeVerdict` leaves unchanged. -/
@[simp] theorem Chip.takeVerdict_frame (c : Chip) (f : HeardFrame) :
    (c.takeVerdict f).inReset = c.inReset ∧ (c.takeVerdict f).self = c.self ∧ (c.takeVerdict f).now = c.now ∧
    (c.takeVerdict f).freeIndex = c.freeIndex ∧ (c.takeVerdict f).cmd.mode = c.cmd.mode ∧
    (c.takeVerdict f).cmd.staging = c.cmd.staging ∧ (c.takeVerdict f).cmd.setup = c.cmd.setup ∧
    (c.takeVerdict f).cmd.memory = c.cmd.memory ∧ (c.takeVerdict f).cmd.restartNumber = c.cmd.restartNumber ∧
    (c.takeVerdict f).cmd.faultAtEnd = c.cmd.faultAtEnd ∧ (c.takeVerdict f).cmd.faultPin = c.cmd.faultPin ∧
    (c.takeVerdict f).fold = c.fold ∧ (c.takeVerdict f).link.state = c.link.state ∧
    (c.takeVerdict f).link.settle = c.link.settle ∧ (c.takeVerdict f).link.hold = c.link.hold ∧
    (c.takeVerdict f).link.nextPoint = c.link.nextPoint ∧ (c.takeVerdict f).link.lastPoint = c.link.lastPoint ∧
    (c.takeVerdict f).link.beaconCount = c.link.beaconCount ∧ (c.takeVerdict f).link.mediumIdle = c.link.mediumIdle ∧
    (c.takeVerdict f).link.receiver = c.link.receiver ∧ (c.takeVerdict f).link.presence = c.link.presence ∧
    (c.takeVerdict f).link.strike = c.link.strike ∧ (c.takeVerdict f).verdicts = c.verdicts ∧
    (c.takeVerdict f).notice.writing = c.notice.writing ∧ (c.takeVerdict f).notice.poll = c.notice.poll ∧
    (c.takeVerdict f).notice.pn = c.notice.pn ∧ (c.takeVerdict f).notice.cn = c.notice.cn ∧
    (c.takeVerdict f).payloadWrites = c.payloadWrites ∧
    (c.takeVerdict f).handlesTaken = c.handlesTaken := by
  unfold takeVerdict
  repeat' split
  all_goals simp

/-- What `batchExpiry` leaves unchanged. -/
@[simp] theorem Chip.batchExpiry_frame (c : Chip) (i : Nat) :
    (c.batchExpiry i).inReset = c.inReset ∧ (c.batchExpiry i).self = c.self ∧ (c.batchExpiry i).freeIndex = c.freeIndex ∧
    (c.batchExpiry i).cmd = c.cmd ∧ (c.batchExpiry i).fold = c.fold ∧ (c.batchExpiry i).link.state = c.link.state ∧
    (c.batchExpiry i).link.settle = c.link.settle ∧ (c.batchExpiry i).link.hold = c.link.hold ∧
    (c.batchExpiry i).link.nextPoint = c.link.nextPoint ∧ (c.batchExpiry i).link.lastPoint = c.link.lastPoint ∧
    (c.batchExpiry i).link.beaconCount = c.link.beaconCount ∧ (c.batchExpiry i).link.mediumIdle = c.link.mediumIdle ∧
    (c.batchExpiry i).link.receiver = c.link.receiver ∧ (c.batchExpiry i).link.presence = c.link.presence ∧
    (c.batchExpiry i).link.strike = c.link.strike ∧ (c.batchExpiry i).link.wire = c.link.wire ∧
    (c.batchExpiry i).extFree = c.extFree ∧ (c.batchExpiry i).pendFree = c.pendFree ∧ (c.batchExpiry i).cache = c.cache ∧
    (c.batchExpiry i).retired = c.retired ∧ (c.batchExpiry i).verdicts = c.verdicts ∧ (c.batchExpiry i).small = c.small ∧
    (c.batchExpiry i).large = c.large ∧ (c.batchExpiry i).notice.re = c.notice.re ∧
    (c.batchExpiry i).notice.rb = c.notice.rb ∧ (c.batchExpiry i).notice.writing = c.notice.writing ∧
    (c.batchExpiry i).notice.poll = c.notice.poll ∧ (c.batchExpiry i).notice.pn = c.notice.pn ∧
    (c.batchExpiry i).notice.cn = c.notice.cn ∧ (c.batchExpiry i).payloadWrites = c.payloadWrites ∧
    (c.batchExpiry i).handlesTaken = c.handlesTaken := by
  unfold batchExpiry
  repeat' split
  all_goals simp

/-- What `settleAnchor` leaves unchanged. -/
@[simp] theorem Chip.settleAnchor_frame (c : Chip) (i : Nat) (ctx : Context) (a : Anchor) :
    (c.settleAnchor i ctx a).inReset = c.inReset ∧ (c.settleAnchor i ctx a).self = c.self ∧
    (c.settleAnchor i ctx a).now = c.now ∧ (c.settleAnchor i ctx a).freeIndex = c.freeIndex ∧
    (c.settleAnchor i ctx a).cmd = c.cmd ∧ (c.settleAnchor i ctx a).fold = c.fold ∧
    (c.settleAnchor i ctx a).intake = c.intake ∧ (c.settleAnchor i ctx a).link = c.link ∧
    (c.settleAnchor i ctx a).extFree = c.extFree ∧ (c.settleAnchor i ctx a).pendFree = c.pendFree ∧
    (c.settleAnchor i ctx a).cache = c.cache ∧ (c.settleAnchor i ctx a).retired = c.retired ∧
    (c.settleAnchor i ctx a).nextSeq = c.nextSeq ∧ (c.settleAnchor i ctx a).pair = c.pair ∧
    (c.settleAnchor i ctx a).verdicts = c.verdicts ∧ (c.settleAnchor i ctx a).small = c.small ∧
    (c.settleAnchor i ctx a).large = c.large ∧ (c.settleAnchor i ctx a).notice.re = c.notice.re ∧
    (c.settleAnchor i ctx a).notice.latches = c.notice.latches ∧
    (c.settleAnchor i ctx a).notice.writing = c.notice.writing ∧ (c.settleAnchor i ctx a).notice.poll = c.notice.poll ∧
    (c.settleAnchor i ctx a).notice.pn = c.notice.pn ∧ (c.settleAnchor i ctx a).notice.cn = c.notice.cn ∧
    (c.settleAnchor i ctx a).payloadWrites = c.payloadWrites ∧
    (c.settleAnchor i ctx a).handlesTaken = c.handlesTaken := by
  simp [settleAnchor]

/-- What `settleExpiry` leaves unchanged. -/
@[simp] theorem Chip.settleExpiry_frame (c : Chip) (i : Nat) :
    (c.settleExpiry i).inReset = c.inReset ∧ (c.settleExpiry i).self = c.self ∧ (c.settleExpiry i).freeIndex = c.freeIndex ∧
    (c.settleExpiry i).cmd.mode = c.cmd.mode ∧ (c.settleExpiry i).cmd.staging = c.cmd.staging ∧
    (c.settleExpiry i).cmd.setup = c.cmd.setup ∧ (c.settleExpiry i).cmd.memory = c.cmd.memory ∧
    (c.settleExpiry i).cmd.restartNumber = c.cmd.restartNumber ∧ (c.settleExpiry i).cmd.faultAtEnd = c.cmd.faultAtEnd ∧
    (c.settleExpiry i).cmd.faultPin = c.cmd.faultPin ∧ (c.settleExpiry i).fold = c.fold ∧
    (c.settleExpiry i).link.state = c.link.state ∧ (c.settleExpiry i).link.settle = c.link.settle ∧
    (c.settleExpiry i).link.hold = c.link.hold ∧ (c.settleExpiry i).link.nextPoint = c.link.nextPoint ∧
    (c.settleExpiry i).link.lastPoint = c.link.lastPoint ∧ (c.settleExpiry i).link.beaconCount = c.link.beaconCount ∧
    (c.settleExpiry i).link.mediumIdle = c.link.mediumIdle ∧ (c.settleExpiry i).link.receiver = c.link.receiver ∧
    (c.settleExpiry i).link.presence = c.link.presence ∧ (c.settleExpiry i).link.strike = c.link.strike ∧
    (c.settleExpiry i).pendFree = c.pendFree ∧ (c.settleExpiry i).verdicts = c.verdicts ∧
    (c.settleExpiry i).small = c.small ∧ (c.settleExpiry i).large = c.large ∧
    (c.settleExpiry i).notice.writing = c.notice.writing ∧ (c.settleExpiry i).notice.poll = c.notice.poll ∧
    (c.settleExpiry i).notice.pn = c.notice.pn ∧ (c.settleExpiry i).notice.cn = c.notice.cn ∧
    (c.settleExpiry i).payloadWrites = c.payloadWrites ∧
    (c.settleExpiry i).handlesTaken = c.handlesTaken := by
  unfold settleExpiry
  repeat' split
  all_goals simp

/-- What `anchorIdleExpiry` leaves unchanged. -/
@[simp] theorem Chip.anchorIdleExpiry_frame (c : Chip) (i : Nat) :
    (c.anchorIdleExpiry i).inReset = c.inReset ∧ (c.anchorIdleExpiry i).self = c.self ∧
    (c.anchorIdleExpiry i).freeIndex = c.freeIndex ∧ (c.anchorIdleExpiry i).cmd.mode = c.cmd.mode ∧
    (c.anchorIdleExpiry i).cmd.staging = c.cmd.staging ∧ (c.anchorIdleExpiry i).cmd.setup = c.cmd.setup ∧
    (c.anchorIdleExpiry i).cmd.memory = c.cmd.memory ∧ (c.anchorIdleExpiry i).cmd.restartNumber = c.cmd.restartNumber ∧
    (c.anchorIdleExpiry i).cmd.faultAtEnd = c.cmd.faultAtEnd ∧ (c.anchorIdleExpiry i).cmd.faultPin = c.cmd.faultPin ∧
    (c.anchorIdleExpiry i).fold = c.fold ∧ (c.anchorIdleExpiry i).link.state = c.link.state ∧
    (c.anchorIdleExpiry i).link.settle = c.link.settle ∧ (c.anchorIdleExpiry i).link.hold = c.link.hold ∧
    (c.anchorIdleExpiry i).link.nextPoint = c.link.nextPoint ∧ (c.anchorIdleExpiry i).link.lastPoint = c.link.lastPoint ∧
    (c.anchorIdleExpiry i).link.beaconCount = c.link.beaconCount ∧
    (c.anchorIdleExpiry i).link.mediumIdle = c.link.mediumIdle ∧ (c.anchorIdleExpiry i).link.receiver = c.link.receiver ∧
    (c.anchorIdleExpiry i).link.presence = c.link.presence ∧ (c.anchorIdleExpiry i).link.strike = c.link.strike ∧
    (c.anchorIdleExpiry i).pendFree = c.pendFree ∧ (c.anchorIdleExpiry i).verdicts = c.verdicts ∧
    (c.anchorIdleExpiry i).small = c.small ∧ (c.anchorIdleExpiry i).large = c.large ∧
    (c.anchorIdleExpiry i).notice.writing = c.notice.writing ∧ (c.anchorIdleExpiry i).notice.poll = c.notice.poll ∧
    (c.anchorIdleExpiry i).notice.pn = c.notice.pn ∧ (c.anchorIdleExpiry i).notice.cn = c.notice.cn ∧
    (c.anchorIdleExpiry i).payloadWrites = c.payloadWrites ∧
    (c.anchorIdleExpiry i).handlesTaken = c.handlesTaken := by
  unfold anchorIdleExpiry
  repeat' split
  all_goals simp

/-- What `feederIdleExpiry` leaves unchanged. -/
@[simp] theorem Chip.feederIdleExpiry_frame (c : Chip) (i : Nat) :
    (c.feederIdleExpiry i).inReset = c.inReset ∧ (c.feederIdleExpiry i).self = c.self ∧
    (c.feederIdleExpiry i).freeIndex = c.freeIndex ∧ (c.feederIdleExpiry i).cmd = c.cmd ∧
    (c.feederIdleExpiry i).fold = c.fold ∧ (c.feederIdleExpiry i).link.state = c.link.state ∧
    (c.feederIdleExpiry i).link.settle = c.link.settle ∧ (c.feederIdleExpiry i).link.hold = c.link.hold ∧
    (c.feederIdleExpiry i).link.nextPoint = c.link.nextPoint ∧ (c.feederIdleExpiry i).link.lastPoint = c.link.lastPoint ∧
    (c.feederIdleExpiry i).link.beaconCount = c.link.beaconCount ∧
    (c.feederIdleExpiry i).link.mediumIdle = c.link.mediumIdle ∧ (c.feederIdleExpiry i).link.receiver = c.link.receiver ∧
    (c.feederIdleExpiry i).link.presence = c.link.presence ∧ (c.feederIdleExpiry i).link.strike = c.link.strike ∧
    (c.feederIdleExpiry i).link.wire = c.link.wire ∧ (c.feederIdleExpiry i).pendFree = c.pendFree ∧
    (c.feederIdleExpiry i).cache = c.cache ∧ (c.feederIdleExpiry i).retired = c.retired ∧
    (c.feederIdleExpiry i).verdicts = c.verdicts ∧ (c.feederIdleExpiry i).small = c.small ∧
    (c.feederIdleExpiry i).large = c.large ∧ (c.feederIdleExpiry i).notice.rb = c.notice.rb ∧
    (c.feederIdleExpiry i).notice.writing = c.notice.writing ∧ (c.feederIdleExpiry i).notice.poll = c.notice.poll ∧
    (c.feederIdleExpiry i).notice.pn = c.notice.pn ∧ (c.feederIdleExpiry i).notice.cn = c.notice.cn ∧
    (c.feederIdleExpiry i).payloadWrites = c.payloadWrites ∧
    (c.feederIdleExpiry i).handlesTaken = c.handlesTaken := by
  unfold feederIdleExpiry
  repeat' split
  all_goals simp

/-- What `resend` leaves unchanged. -/
@[simp] theorem Chip.resend_frame (c : Chip) (i : Nat) (ctx : Context) (f : Feeder) (t : Tally) (n : Nat) :
    (c.resend i ctx f t n).inReset = c.inReset ∧ (c.resend i ctx f t n).self = c.self ∧ (c.resend i ctx f t n).now = c.now ∧
    (c.resend i ctx f t n).freeIndex = c.freeIndex ∧ (c.resend i ctx f t n).cmd = c.cmd ∧
    (c.resend i ctx f t n).fold = c.fold ∧ (c.resend i ctx f t n).intake = c.intake ∧
    (c.resend i ctx f t n).link.state = c.link.state ∧ (c.resend i ctx f t n).link.settle = c.link.settle ∧
    (c.resend i ctx f t n).link.hold = c.link.hold ∧ (c.resend i ctx f t n).link.nextPoint = c.link.nextPoint ∧
    (c.resend i ctx f t n).link.lastPoint = c.link.lastPoint ∧
    (c.resend i ctx f t n).link.beaconCount = c.link.beaconCount ∧
    (c.resend i ctx f t n).link.mediumIdle = c.link.mediumIdle ∧ (c.resend i ctx f t n).link.receiver = c.link.receiver ∧
    (c.resend i ctx f t n).link.presence = c.link.presence ∧ (c.resend i ctx f t n).link.strike = c.link.strike ∧
    (c.resend i ctx f t n).link.wire = c.link.wire ∧ (c.resend i ctx f t n).extFree = c.extFree ∧
    (c.resend i ctx f t n).pendFree = c.pendFree ∧ (c.resend i ctx f t n).cache = c.cache ∧
    (c.resend i ctx f t n).retired = c.retired ∧ (c.resend i ctx f t n).nextSeq = c.nextSeq ∧
    (c.resend i ctx f t n).pair = c.pair ∧ (c.resend i ctx f t n).verdicts = c.verdicts ∧
    (c.resend i ctx f t n).small = c.small ∧ (c.resend i ctx f t n).large = c.large ∧
    (c.resend i ctx f t n).notice = c.notice ∧ (c.resend i ctx f t n).payloadWrites = c.payloadWrites ∧
    (c.resend i ctx f t n).handlesTaken = c.handlesTaken := by
  simp [resend]

/-- What `verdictExpiry` leaves unchanged. -/
@[simp] theorem Chip.verdictExpiry_frame (c : Chip) (i : Nat) :
    (c.verdictExpiry i).inReset = c.inReset ∧ (c.verdictExpiry i).self = c.self ∧
    (c.verdictExpiry i).freeIndex = c.freeIndex ∧ (c.verdictExpiry i).cmd = c.cmd ∧ (c.verdictExpiry i).fold = c.fold ∧
    (c.verdictExpiry i).link.state = c.link.state ∧ (c.verdictExpiry i).link.settle = c.link.settle ∧
    (c.verdictExpiry i).link.hold = c.link.hold ∧ (c.verdictExpiry i).link.nextPoint = c.link.nextPoint ∧
    (c.verdictExpiry i).link.lastPoint = c.link.lastPoint ∧ (c.verdictExpiry i).link.beaconCount = c.link.beaconCount ∧
    (c.verdictExpiry i).link.mediumIdle = c.link.mediumIdle ∧ (c.verdictExpiry i).link.receiver = c.link.receiver ∧
    (c.verdictExpiry i).link.presence = c.link.presence ∧ (c.verdictExpiry i).link.strike = c.link.strike ∧
    (c.verdictExpiry i).verdicts = c.verdicts ∧ (c.verdictExpiry i).notice.writing = c.notice.writing ∧
    (c.verdictExpiry i).notice.poll = c.notice.poll ∧ (c.verdictExpiry i).notice.pn = c.notice.pn ∧
    (c.verdictExpiry i).notice.cn = c.notice.cn ∧ (c.verdictExpiry i).payloadWrites = c.payloadWrites ∧
    (c.verdictExpiry i).handlesTaken = c.handlesTaken := by
  unfold verdictExpiry
  repeat' split
  all_goals simp

/-- What `holdWaitExpiry` leaves unchanged. -/
@[simp] theorem Chip.holdWaitExpiry_frame (c : Chip) (i : Nat) :
    (c.holdWaitExpiry i).inReset = c.inReset ∧ (c.holdWaitExpiry i).self = c.self ∧
    (c.holdWaitExpiry i).freeIndex = c.freeIndex ∧ (c.holdWaitExpiry i).cmd = c.cmd ∧ (c.holdWaitExpiry i).fold = c.fold ∧
    (c.holdWaitExpiry i).intake = c.intake ∧ (c.holdWaitExpiry i).link.state = c.link.state ∧
    (c.holdWaitExpiry i).link.settle = c.link.settle ∧ (c.holdWaitExpiry i).link.hold = c.link.hold ∧
    (c.holdWaitExpiry i).link.nextPoint = c.link.nextPoint ∧ (c.holdWaitExpiry i).link.lastPoint = c.link.lastPoint ∧
    (c.holdWaitExpiry i).link.beaconCount = c.link.beaconCount ∧ (c.holdWaitExpiry i).link.mediumIdle = c.link.mediumIdle ∧
    (c.holdWaitExpiry i).link.receiver = c.link.receiver ∧ (c.holdWaitExpiry i).link.presence = c.link.presence ∧
    (c.holdWaitExpiry i).link.strike = c.link.strike ∧ (c.holdWaitExpiry i).link.wire = c.link.wire ∧
    (c.holdWaitExpiry i).extFree = c.extFree ∧ (c.holdWaitExpiry i).pendFree = c.pendFree ∧
    (c.holdWaitExpiry i).cache = c.cache ∧ (c.holdWaitExpiry i).retired = c.retired ∧
    (c.holdWaitExpiry i).nextSeq = c.nextSeq ∧ (c.holdWaitExpiry i).pair = c.pair ∧
    (c.holdWaitExpiry i).verdicts = c.verdicts ∧ (c.holdWaitExpiry i).small = c.small ∧
    (c.holdWaitExpiry i).large = c.large ∧ (c.holdWaitExpiry i).notice = c.notice ∧
    (c.holdWaitExpiry i).payloadWrites = c.payloadWrites ∧
    (c.holdWaitExpiry i).handlesTaken = c.handlesTaken := by
  unfold holdWaitExpiry
  repeat' split
  all_goals simp

/-- What `offerAnswer` leaves unchanged. -/
@[simp] theorem Chip.offerAnswer_frame (c : Chip) (b : List Byte) :
    (c.offerAnswer b).inReset = c.inReset ∧ (c.offerAnswer b).self = c.self ∧ (c.offerAnswer b).now = c.now ∧
    (c.offerAnswer b).freeIndex = c.freeIndex ∧ (c.offerAnswer b).cmd.mode = c.cmd.mode ∧
    (c.offerAnswer b).cmd.staging = c.cmd.staging ∧ (c.offerAnswer b).cmd.setup = c.cmd.setup ∧
    (c.offerAnswer b).cmd.memory = c.cmd.memory ∧ (c.offerAnswer b).cmd.restartNumber = c.cmd.restartNumber ∧
    (c.offerAnswer b).cmd.faultAtEnd = c.cmd.faultAtEnd ∧ (c.offerAnswer b).cmd.faultPin = c.cmd.faultPin ∧
    (c.offerAnswer b).fold = c.fold ∧ (c.offerAnswer b).intake = c.intake ∧ (c.offerAnswer b).link.state = c.link.state ∧
    (c.offerAnswer b).link.settle = c.link.settle ∧ (c.offerAnswer b).link.hold = c.link.hold ∧
    (c.offerAnswer b).link.nextPoint = c.link.nextPoint ∧ (c.offerAnswer b).link.lastPoint = c.link.lastPoint ∧
    (c.offerAnswer b).link.beaconCount = c.link.beaconCount ∧ (c.offerAnswer b).link.mediumIdle = c.link.mediumIdle ∧
    (c.offerAnswer b).link.receiver = c.link.receiver ∧ (c.offerAnswer b).link.presence = c.link.presence ∧
    (c.offerAnswer b).link.strike = c.link.strike ∧ (c.offerAnswer b).link.wire = c.link.wire ∧
    (c.offerAnswer b).slots = c.slots ∧ (c.offerAnswer b).extFree = c.extFree ∧ (c.offerAnswer b).pendFree = c.pendFree ∧
    (c.offerAnswer b).cache = c.cache ∧ (c.offerAnswer b).retired = c.retired ∧ (c.offerAnswer b).nextSeq = c.nextSeq ∧
    (c.offerAnswer b).pair = c.pair ∧ (c.offerAnswer b).verdicts = c.verdicts ∧ (c.offerAnswer b).small = c.small ∧
    (c.offerAnswer b).large = c.large ∧ (c.offerAnswer b).notice = c.notice ∧
    (c.offerAnswer b).payloadWrites = c.payloadWrites ∧
    (c.offerAnswer b).handlesTaken = c.handlesTaken := by
  unfold offerAnswer
  repeat' split
  all_goals simp

/-- What `record` leaves unchanged. -/
@[simp] theorem Chip.record_frame (c : Chip) (n : Byte) (b : List Byte) :
    (c.record n b).inReset = c.inReset ∧ (c.record n b).self = c.self ∧ (c.record n b).now = c.now ∧
    (c.record n b).freeIndex = c.freeIndex ∧ (c.record n b).cmd.mode = c.cmd.mode ∧
    (c.record n b).cmd.staging = c.cmd.staging ∧ (c.record n b).cmd.setup = c.cmd.setup ∧
    (c.record n b).cmd.counters = c.cmd.counters ∧ (c.record n b).cmd.restartNumber = c.cmd.restartNumber ∧
    (c.record n b).cmd.faultAtEnd = c.cmd.faultAtEnd ∧ (c.record n b).cmd.faultPin = c.cmd.faultPin ∧
    (c.record n b).fold = c.fold ∧ (c.record n b).intake = c.intake ∧ (c.record n b).link = c.link ∧
    (c.record n b).slots = c.slots ∧ (c.record n b).extFree = c.extFree ∧ (c.record n b).pendFree = c.pendFree ∧
    (c.record n b).cache = c.cache ∧ (c.record n b).retired = c.retired ∧ (c.record n b).nextSeq = c.nextSeq ∧
    (c.record n b).pair = c.pair ∧ (c.record n b).verdicts = c.verdicts ∧ (c.record n b).small = c.small ∧
    (c.record n b).large = c.large ∧ (c.record n b).notice = c.notice ∧ (c.record n b).payloadWrites = c.payloadWrites ∧
    (c.record n b).handlesTaken = c.handlesTaken := by
  simp [record]

/-- What `answer` leaves unchanged. -/
@[simp] theorem Chip.answer_frame (c : Chip) (n k : Byte) (r : Reply) :
    (c.answer n k r).inReset = c.inReset ∧ (c.answer n k r).self = c.self ∧ (c.answer n k r).now = c.now ∧
    (c.answer n k r).freeIndex = c.freeIndex ∧ (c.answer n k r).cmd.mode = c.cmd.mode ∧
    (c.answer n k r).cmd.staging = c.cmd.staging ∧ (c.answer n k r).cmd.setup = c.cmd.setup ∧
    (c.answer n k r).cmd.restartNumber = c.cmd.restartNumber ∧ (c.answer n k r).cmd.faultAtEnd = c.cmd.faultAtEnd ∧
    (c.answer n k r).cmd.faultPin = c.cmd.faultPin ∧ (c.answer n k r).fold = c.fold ∧ (c.answer n k r).intake = c.intake ∧
    (c.answer n k r).link.state = c.link.state ∧ (c.answer n k r).link.settle = c.link.settle ∧
    (c.answer n k r).link.hold = c.link.hold ∧ (c.answer n k r).link.nextPoint = c.link.nextPoint ∧
    (c.answer n k r).link.lastPoint = c.link.lastPoint ∧ (c.answer n k r).link.beaconCount = c.link.beaconCount ∧
    (c.answer n k r).link.mediumIdle = c.link.mediumIdle ∧ (c.answer n k r).link.receiver = c.link.receiver ∧
    (c.answer n k r).link.presence = c.link.presence ∧ (c.answer n k r).link.strike = c.link.strike ∧
    (c.answer n k r).link.wire = c.link.wire ∧ (c.answer n k r).slots = c.slots ∧ (c.answer n k r).extFree = c.extFree ∧
    (c.answer n k r).pendFree = c.pendFree ∧ (c.answer n k r).cache = c.cache ∧ (c.answer n k r).retired = c.retired ∧
    (c.answer n k r).nextSeq = c.nextSeq ∧ (c.answer n k r).pair = c.pair ∧ (c.answer n k r).verdicts = c.verdicts ∧
    (c.answer n k r).small = c.small ∧ (c.answer n k r).large = c.large ∧ (c.answer n k r).notice = c.notice ∧
    (c.answer n k r).payloadWrites = c.payloadWrites ∧
    (c.answer n k r).handlesTaken = c.handlesTaken := by
  unfold answer
  dsimp only
  split <;> simp

/-- What `setMode` leaves unchanged. -/
@[simp] theorem Chip.setMode_frame (c : Chip) (m : Mode) :
    (c.setMode m).inReset = c.inReset ∧ (c.setMode m).self = c.self ∧ (c.setMode m).now = c.now ∧
    (c.setMode m).freeIndex = c.freeIndex ∧ (c.setMode m).cmd.staging = c.cmd.staging ∧
    (c.setMode m).cmd.setup = c.cmd.setup ∧ (c.setMode m).cmd.memory = c.cmd.memory ∧
    (c.setMode m).cmd.counters = c.cmd.counters ∧ (c.setMode m).cmd.restartNumber = c.cmd.restartNumber ∧
    (c.setMode m).cmd.faultAtEnd = c.cmd.faultAtEnd ∧ (c.setMode m).cmd.faultPin = c.cmd.faultPin ∧
    (c.setMode m).fold = c.fold ∧ (c.setMode m).intake = c.intake ∧ (c.setMode m).link = c.link ∧
    (c.setMode m).slots = c.slots ∧ (c.setMode m).extFree = c.extFree ∧ (c.setMode m).pendFree = c.pendFree ∧
    (c.setMode m).cache = c.cache ∧ (c.setMode m).retired = c.retired ∧ (c.setMode m).nextSeq = c.nextSeq ∧
    (c.setMode m).pair = c.pair ∧ (c.setMode m).verdicts = c.verdicts ∧ (c.setMode m).small = c.small ∧
    (c.setMode m).large = c.large ∧ (c.setMode m).notice = c.notice ∧ (c.setMode m).payloadWrites = c.payloadWrites ∧
    (c.setMode m).handlesTaken = c.handlesTaken := by
  simp [setMode]

/-- What `tableReady` leaves unchanged. -/
@[simp] theorem Chip.tableReady_frame (c : Chip) :
    (c.tableReady).inReset = c.inReset ∧ (c.tableReady).self = c.self ∧ (c.tableReady).now = c.now ∧
    (c.tableReady).freeIndex = c.freeIndex ∧ (c.tableReady).cmd.staging = c.cmd.staging ∧
    (c.tableReady).cmd.setup = c.cmd.setup ∧ (c.tableReady).cmd.memory = c.cmd.memory ∧
    (c.tableReady).cmd.counters = c.cmd.counters ∧ (c.tableReady).cmd.restartNumber = c.cmd.restartNumber ∧
    (c.tableReady).cmd.faultAtEnd = c.cmd.faultAtEnd ∧ (c.tableReady).cmd.faultPin = c.cmd.faultPin ∧
    (c.tableReady).link = c.link ∧ (c.tableReady).slots = c.slots ∧ (c.tableReady).extFree = c.extFree ∧
    (c.tableReady).pendFree = c.pendFree ∧ (c.tableReady).cache = c.cache ∧ (c.tableReady).retired = c.retired ∧
    (c.tableReady).nextSeq = c.nextSeq ∧ (c.tableReady).pair = c.pair ∧ (c.tableReady).verdicts = c.verdicts ∧
    (c.tableReady).notice.re = c.notice.re ∧ (c.tableReady).notice.rb = c.notice.rb ∧
    (c.tableReady).notice.writing = c.notice.writing ∧ (c.tableReady).notice.poll = c.notice.poll ∧
    (c.tableReady).notice.pn = c.notice.pn ∧ (c.tableReady).notice.cn = c.notice.cn ∧
    (c.tableReady).payloadWrites = c.payloadWrites ∧
    (c.tableReady).handlesTaken = c.handlesTaken := by
  unfold tableReady
  split
  · dsimp only
    split <;> simp
  · simp

/-- What `clearCounters` leaves unchanged. -/
@[simp] theorem Chip.clearCounters_frame (c : Chip) :
    (c.clearCounters).inReset = c.inReset ∧ (c.clearCounters).self = c.self ∧ (c.clearCounters).now = c.now ∧
    (c.clearCounters).freeIndex = c.freeIndex ∧ (c.clearCounters).cmd.mode = c.cmd.mode ∧
    (c.clearCounters).cmd.staging = c.cmd.staging ∧ (c.clearCounters).cmd.setup = c.cmd.setup ∧
    (c.clearCounters).cmd.memory = c.cmd.memory ∧ (c.clearCounters).cmd.restartNumber = c.cmd.restartNumber ∧
    (c.clearCounters).cmd.faultAtEnd = c.cmd.faultAtEnd ∧ (c.clearCounters).cmd.faultPin = c.cmd.faultPin ∧
    (c.clearCounters).fold = c.fold ∧ (c.clearCounters).intake = c.intake ∧ (c.clearCounters).link.state = c.link.state ∧
    (c.clearCounters).link.settle = c.link.settle ∧ (c.clearCounters).link.hold = c.link.hold ∧
    (c.clearCounters).link.nextPoint = c.link.nextPoint ∧ (c.clearCounters).link.lastPoint = c.link.lastPoint ∧
    (c.clearCounters).link.beaconCount = c.link.beaconCount ∧ (c.clearCounters).link.mediumIdle = c.link.mediumIdle ∧
    (c.clearCounters).link.receiver = c.link.receiver ∧ (c.clearCounters).link.strike = c.link.strike ∧
    (c.clearCounters).link.queues = c.link.queues ∧ (c.clearCounters).link.wire = c.link.wire ∧
    (c.clearCounters).slots = c.slots ∧ (c.clearCounters).extFree = c.extFree ∧ (c.clearCounters).pendFree = c.pendFree ∧
    (c.clearCounters).cache = c.cache ∧ (c.clearCounters).retired = c.retired ∧ (c.clearCounters).nextSeq = c.nextSeq ∧
    (c.clearCounters).pair = c.pair ∧ (c.clearCounters).verdicts = c.verdicts ∧ (c.clearCounters).small = c.small ∧
    (c.clearCounters).large = c.large ∧ (c.clearCounters).notice = c.notice ∧
    (c.clearCounters).payloadWrites = c.payloadWrites ∧
    (c.clearCounters).handlesTaken = c.handlesTaken := by
  simp [clearCounters]

/-- What `restartIntake` leaves unchanged. -/
@[simp] theorem Chip.restartIntake_frame (c : Chip) :
    (c.restartIntake).inReset = c.inReset ∧ (c.restartIntake).self = c.self ∧ (c.restartIntake).now = c.now ∧
    (c.restartIntake).freeIndex = c.freeIndex ∧ (c.restartIntake).cmd = c.cmd ∧ (c.restartIntake).link = c.link ∧
    (c.restartIntake).slots = c.slots ∧ (c.restartIntake).cache = c.cache ∧ (c.restartIntake).retired = c.retired ∧ (c.restartIntake).nextSeq = c.nextSeq ∧
    (c.restartIntake).pair = c.pair ∧ (c.restartIntake).verdicts = c.verdicts ∧ (c.restartIntake).small = c.small ∧
    (c.restartIntake).large = c.large ∧ (c.restartIntake).notice = c.notice ∧
    (c.restartIntake).payloadWrites = c.payloadWrites ∧
    (c.restartIntake).handlesTaken = c.handlesTaken := by
  unfold restartIntake
  repeat' split
  all_goals simp

/-- What `setRefill` leaves unchanged. -/
@[simp] theorem Chip.setRefill_frame (c : Chip) (cls : BufClass) (r : Refill) :
    (c.setRefill cls r).inReset = c.inReset ∧ (c.setRefill cls r).self = c.self ∧ (c.setRefill cls r).now = c.now ∧
    (c.setRefill cls r).freeIndex = c.freeIndex ∧ (c.setRefill cls r).cmd = c.cmd ∧ (c.setRefill cls r).fold = c.fold ∧
    (c.setRefill cls r).intake = c.intake ∧ (c.setRefill cls r).link = c.link ∧ (c.setRefill cls r).slots = c.slots ∧
    (c.setRefill cls r).extFree = c.extFree ∧ (c.setRefill cls r).pendFree = c.pendFree ∧
    (c.setRefill cls r).cache = c.cache ∧ (c.setRefill cls r).retired = c.retired ∧
    (c.setRefill cls r).nextSeq = c.nextSeq ∧ (c.setRefill cls r).pair = c.pair ∧
    (c.setRefill cls r).verdicts = c.verdicts ∧ (c.setRefill cls r).notice = c.notice ∧
    (c.setRefill cls r).payloadWrites = c.payloadWrites ∧
    (c.setRefill cls r).handlesTaken = c.handlesTaken := by
  simp [setRefill]

/-- What `producerArrives` leaves unchanged. -/
@[simp] theorem Chip.producerArrives_frame (c : Chip) (cls : BufClass) (w : BitVec 32) :
    (c.producerArrives cls w).inReset = c.inReset ∧ (c.producerArrives cls w).self = c.self ∧
    (c.producerArrives cls w).now = c.now ∧ (c.producerArrives cls w).freeIndex = c.freeIndex ∧
    (c.producerArrives cls w).cmd = c.cmd ∧ (c.producerArrives cls w).fold = c.fold ∧
    (c.producerArrives cls w).intake = c.intake ∧ (c.producerArrives cls w).link = c.link ∧
    (c.producerArrives cls w).slots = c.slots ∧ (c.producerArrives cls w).extFree = c.extFree ∧
    (c.producerArrives cls w).pendFree = c.pendFree ∧ (c.producerArrives cls w).cache = c.cache ∧
    (c.producerArrives cls w).retired = c.retired ∧ (c.producerArrives cls w).nextSeq = c.nextSeq ∧
    (c.producerArrives cls w).pair = c.pair ∧ (c.producerArrives cls w).verdicts = c.verdicts ∧
    (c.producerArrives cls w).notice = c.notice ∧ (c.producerArrives cls w).payloadWrites = c.payloadWrites ∧
    (c.producerArrives cls w).handlesTaken = c.handlesTaken := by
  unfold producerArrives
  repeat' split
  all_goals simp

/-- `refillAnswer` takes the answer, or leaves the station as it stands. -/
theorem Chip.refillAnswer_cases (c : Chip) (cls : BufClass) (addr : Addr) (take : Chip → Chip) :
    (c.refillRead cls = some addr ∧ c.refillAnswer cls addr take = take c) ∨
      (c.refillRead cls ≠ some addr ∧ c.refillAnswer cls addr take = c) := by
  unfold refillAnswer
  split
  · exact .inl ⟨‹_›, rfl⟩
  · exact .inr ⟨‹_›, rfl⟩

/-- What `entryArrives` leaves unchanged. -/
@[simp] theorem Chip.entryArrives_frame (c : Chip) (cls : BufClass) (e : List Byte) :
    (c.entryArrives cls e).inReset = c.inReset ∧ (c.entryArrives cls e).self = c.self ∧ (c.entryArrives cls e).now = c.now ∧
    (c.entryArrives cls e).freeIndex = c.freeIndex ∧ (c.entryArrives cls e).cmd = c.cmd ∧
    (c.entryArrives cls e).fold = c.fold ∧ (c.entryArrives cls e).intake = c.intake ∧ (c.entryArrives cls e).link = c.link ∧
    (c.entryArrives cls e).slots = c.slots ∧ (c.entryArrives cls e).extFree = c.extFree ∧
    (c.entryArrives cls e).pendFree = c.pendFree ∧ (c.entryArrives cls e).cache = c.cache ∧
    (c.entryArrives cls e).retired = c.retired ∧ (c.entryArrives cls e).nextSeq = c.nextSeq ∧
    (c.entryArrives cls e).pair = c.pair ∧ (c.entryArrives cls e).verdicts = c.verdicts ∧
    (c.entryArrives cls e).notice = c.notice ∧ (c.entryArrives cls e).payloadWrites = c.payloadWrites := by
  unfold entryArrives
  repeat' split
  all_goals simp

/-- What `consumerWritten` leaves unchanged. -/
@[simp] theorem Chip.consumerWritten_frame (c : Chip) (cls : BufClass) (n : Nat) :
    (c.consumerWritten cls n).inReset = c.inReset ∧ (c.consumerWritten cls n).self = c.self ∧
    (c.consumerWritten cls n).now = c.now ∧ (c.consumerWritten cls n).freeIndex = c.freeIndex ∧
    (c.consumerWritten cls n).cmd = c.cmd ∧ (c.consumerWritten cls n).fold = c.fold ∧
    (c.consumerWritten cls n).intake = c.intake ∧ (c.consumerWritten cls n).link = c.link ∧
    (c.consumerWritten cls n).slots = c.slots ∧ (c.consumerWritten cls n).extFree = c.extFree ∧
    (c.consumerWritten cls n).pendFree = c.pendFree ∧ (c.consumerWritten cls n).cache = c.cache ∧
    (c.consumerWritten cls n).retired = c.retired ∧ (c.consumerWritten cls n).nextSeq = c.nextSeq ∧
    (c.consumerWritten cls n).pair = c.pair ∧ (c.consumerWritten cls n).verdicts = c.verdicts ∧
    (c.consumerWritten cls n).notice = c.notice ∧ (c.consumerWritten cls n).payloadWrites = c.payloadWrites ∧
    (c.consumerWritten cls n).handlesTaken = c.handlesTaken := by
  simp [consumerWritten]

/-- What `beginWrite` leaves unchanged. -/
@[simp] theorem Chip.beginWrite_frame (c : Chip) :
    (c.beginWrite).inReset = c.inReset ∧ (c.beginWrite).self = c.self ∧ (c.beginWrite).now = c.now ∧
    (c.beginWrite).freeIndex = c.freeIndex ∧ (c.beginWrite).cmd = c.cmd ∧ (c.beginWrite).fold = c.fold ∧
    (c.beginWrite).intake = c.intake ∧ (c.beginWrite).link = c.link ∧ (c.beginWrite).slots = c.slots ∧
    (c.beginWrite).extFree = c.extFree ∧ (c.beginWrite).pendFree = c.pendFree ∧ (c.beginWrite).cache = c.cache ∧
    (c.beginWrite).retired = c.retired ∧ (c.beginWrite).nextSeq = c.nextSeq ∧ (c.beginWrite).pair = c.pair ∧
    (c.beginWrite).verdicts = c.verdicts ∧ (c.beginWrite).small = c.small ∧ (c.beginWrite).large = c.large ∧
    (c.beginWrite).notice.queue = c.notice.queue ∧ (c.beginWrite).notice.re = c.notice.re ∧
    (c.beginWrite).notice.rb = c.notice.rb ∧ (c.beginWrite).notice.latches = c.notice.latches ∧
    (c.beginWrite).notice.pn = c.notice.pn ∧ (c.beginWrite).notice.cn = c.notice.cn ∧
    (c.beginWrite).payloadWrites = c.payloadWrites ∧
    (c.beginWrite).handlesTaken = c.handlesTaken := by
  unfold beginWrite
  split
  · split
    · simp
    · split
      · simp
      · split
        · split <;> simp
        · simp
  · simp

/-- What `endWrite` leaves unchanged. -/
@[simp] theorem Chip.endWrite_frame (c : Chip) (w : RecordWrite) :
    (c.endWrite w).inReset = c.inReset ∧ (c.endWrite w).self = c.self ∧ (c.endWrite w).now = c.now ∧
    (c.endWrite w).freeIndex = c.freeIndex ∧ (c.endWrite w).cmd = c.cmd ∧ (c.endWrite w).fold = c.fold ∧
    (c.endWrite w).link = c.link ∧ (c.endWrite w).slots = c.slots ∧ (c.endWrite w).extFree = c.extFree ∧
    (c.endWrite w).pendFree = c.pendFree ∧ (c.endWrite w).cache = c.cache ∧ (c.endWrite w).retired = c.retired ∧
    (c.endWrite w).nextSeq = c.nextSeq ∧ (c.endWrite w).pair = c.pair ∧ (c.endWrite w).verdicts = c.verdicts ∧
    (c.endWrite w).small = c.small ∧ (c.endWrite w).large = c.large ∧ (c.endWrite w).notice.re = c.notice.re ∧
    (c.endWrite w).notice.rb = c.notice.rb ∧ (c.endWrite w).notice.poll = c.notice.poll ∧
    (c.endWrite w).notice.cn = c.notice.cn ∧ (c.endWrite w).payloadWrites = c.payloadWrites ∧
    (c.endWrite w).handlesTaken = c.handlesTaken := by
  simp [endWrite]

/-- What `pollExpiry` leaves unchanged. -/
@[simp] theorem Chip.pollExpiry_frame (c : Chip) :
    (c.pollExpiry).inReset = c.inReset ∧ (c.pollExpiry).self = c.self ∧ (c.pollExpiry).freeIndex = c.freeIndex ∧
    (c.pollExpiry).cmd = c.cmd ∧ (c.pollExpiry).fold = c.fold ∧ (c.pollExpiry).intake = c.intake ∧
    (c.pollExpiry).link = c.link ∧ (c.pollExpiry).slots = c.slots ∧ (c.pollExpiry).extFree = c.extFree ∧
    (c.pollExpiry).pendFree = c.pendFree ∧ (c.pollExpiry).cache = c.cache ∧ (c.pollExpiry).retired = c.retired ∧
    (c.pollExpiry).nextSeq = c.nextSeq ∧ (c.pollExpiry).pair = c.pair ∧ (c.pollExpiry).verdicts = c.verdicts ∧
    (c.pollExpiry).small = c.small ∧ (c.pollExpiry).large = c.large ∧ (c.pollExpiry).notice.queue = c.notice.queue ∧
    (c.pollExpiry).notice.re = c.notice.re ∧ (c.pollExpiry).notice.rb = c.notice.rb ∧
    (c.pollExpiry).notice.latches = c.notice.latches ∧ (c.pollExpiry).notice.writing = c.notice.writing ∧
    (c.pollExpiry).notice.pn = c.notice.pn ∧ (c.pollExpiry).notice.cn = c.notice.cn ∧
    (c.pollExpiry).payloadWrites = c.payloadWrites ∧
    (c.pollExpiry).handlesTaken = c.handlesTaken := by
  unfold pollExpiry
  repeat' split
  all_goals simp

/-- What `consumerArrives` leaves unchanged. -/
@[simp] theorem Chip.consumerArrives_frame (c : Chip) (w : BitVec 32) :
    (c.consumerArrives w).inReset = c.inReset ∧ (c.consumerArrives w).self = c.self ∧ (c.consumerArrives w).now = c.now ∧
    (c.consumerArrives w).freeIndex = c.freeIndex ∧ (c.consumerArrives w).cmd = c.cmd ∧
    (c.consumerArrives w).fold = c.fold ∧ (c.consumerArrives w).intake = c.intake ∧ (c.consumerArrives w).link = c.link ∧
    (c.consumerArrives w).slots = c.slots ∧ (c.consumerArrives w).extFree = c.extFree ∧
    (c.consumerArrives w).pendFree = c.pendFree ∧ (c.consumerArrives w).cache = c.cache ∧
    (c.consumerArrives w).retired = c.retired ∧ (c.consumerArrives w).nextSeq = c.nextSeq ∧
    (c.consumerArrives w).pair = c.pair ∧ (c.consumerArrives w).verdicts = c.verdicts ∧
    (c.consumerArrives w).small = c.small ∧ (c.consumerArrives w).large = c.large ∧
    (c.consumerArrives w).notice.queue = c.notice.queue ∧ (c.consumerArrives w).notice.re = c.notice.re ∧
    (c.consumerArrives w).notice.rb = c.notice.rb ∧ (c.consumerArrives w).notice.latches = c.notice.latches ∧
    (c.consumerArrives w).notice.writing = c.notice.writing ∧ (c.consumerArrives w).notice.pn = c.notice.pn ∧
    (c.consumerArrives w).payloadWrites = c.payloadWrites ∧
    (c.consumerArrives w).handlesTaken = c.handlesTaken := by
  unfold consumerArrives
  repeat' split
  all_goals simp

end Sys2Proof.Machine
end

