-- ==== Sys2Proof/Laws/Memory.lean ====
section
/-! SUPPORT. Host memory: what a write changes and leaves, and that every memory operation keeps the canonical form. -/

namespace Sys2Proof.Machine

namespace Memory

theorem read_write_same (a : Nat) (x : Byte) (m : Memory) : read a (write a x m) = some x := by
  induction m with
  | nil => simp [write, read]
  | cons p r ih =>
    obtain ⟨b, y⟩ := p
    unfold write
    split
    · simp [read]
    · split
      · simp [read]
      · rename_i h; simp [read, h, ih]

theorem read_write_ne {a b : Nat} (h : a ≠ b) (x : Byte) (m : Memory) : read a (write b x m) = read a m := by
  induction m with
  | nil => simp [write, read, Ne.symm h]
  | cons p r ih =>
    obtain ⟨d, y⟩ := p
    unfold write
    split
    · simp [read, Ne.symm h]
    · split
      · rename_i h1 h2; subst h2; simp [read, Ne.symm h]
      · simp only [read, ih]

theorem write_risingFrom {n a : Nat} {m : Memory} (x : Byte) (hm : risingFrom n m = true) (hn : n ≤ a) :
    risingFrom n (write a x m) = true := by
  induction m generalizing n with
  | nil => simp [write, risingFrom, hn]
  | cons p r ih =>
    obtain ⟨b, y⟩ := p
    simp only [risingFrom, Bool.and_eq_true, decide_eq_true_eq] at hm
    unfold write
    split
    · simp only [risingFrom, Bool.and_eq_true, decide_eq_true_eq]; exact ⟨hn, by omega, hm.2⟩
    · split
      · rename_i h; subst h; simp only [risingFrom, Bool.and_eq_true, decide_eq_true_eq]; exact ⟨hn, hm.2⟩
      · simp only [risingFrom, Bool.and_eq_true, decide_eq_true_eq]
        exact ⟨hm.1, ih hm.2 (by omega)⟩

theorem write_wf {a : Nat} {m : Memory} (x : Byte) (hm : wf m = true) : wf (write a x m) = true :=
  write_risingFrom x hm (Nat.zero_le a)

theorem writeBytes_wf {a : Addr} {bs : List Byte} {m : Memory} (hm : wf m = true) : wf (writeBytes a bs m) = true := by
  induction bs generalizing a m with
  | nil => exact hm
  | cons b bs ih => exact ih (write_wf b hm)

theorem writeWord_wf {a : Addr} {n : Nat} {m : Memory} (hm : wf m = true) : wf (writeWord a n m) = true :=
  writeBytes_wf hm

/-- Consecutive writes leave every address outside theirs as it was. -/
theorem read_writeBytes_outside {x : Nat} {a : Addr} {bs : List Byte} {m : Memory}
    (h : ∀ i < bs.length, x ≠ (a + BitVec.ofNat 64 i).toNat) : read x (writeBytes a bs m) = read x m := by
  induction bs generalizing a m with
  | nil => rfl
  | cons b bs ih =>
    have h0 : x ≠ a.toNat := by simpa using h 0 (by simp)
    rw [writeBytes, ih, read_write_ne h0]
    intro i hi
    have := h (i + 1) (by simpa using hi)
    rwa [show a + 1 + BitVec.ofNat 64 i = a + BitVec.ofNat 64 (i + 1) by
      rw [BitVec.add_assoc]; congr 1; apply BitVec.eq_of_toNat_eq; simp; omega]

end Memory

theorem landWrites_wf {ws : List PayloadWrite} {m : Memory} (hm : Memory.wf m = true) :
    Memory.wf (landWrites ws m) = true := by
  unfold landWrites
  induction ws generalizing m with
  | nil => exact hm
  | cons w ws ih => exact ih (Memory.write_wf w.data hm)

theorem writeAbandoned_wf {n i : Nat} {a : Addr} {bs : List Byte} {m : Memory} (hm : Memory.wf m = true) :
    Memory.wf (writeAbandoned n i a bs m) = true := by
  induction bs generalizing i a m with
  | nil => exact hm
  | cons b bs ih =>
    unfold writeAbandoned
    split
    · exact ih (Memory.write_wf b hm)
    · exact ih hm

theorem abandonRecord_wf {c : Chip} {m : Memory} (hm : Memory.wf m = true) : Memory.wf (abandonRecord c m) = true := by
  unfold abandonRecord
  split
  · exact writeAbandoned_wf hm
  · exact hm

theorem abandonConsumer_wf {c : Chip} {cls : BufClass} {m : Memory} (hm : Memory.wf m = true) :
    Memory.wf (abandonConsumer c cls m) = true := by
  unfold abandonConsumer
  repeat' split
  all_goals first | exact hm | exact Memory.writeWord_wf hm

theorem zeroProducer_wf {c d : Chip} {m : Memory} (hm : Memory.wf m = true) : Memory.wf (zeroProducer c d m) = true := by
  unfold zeroProducer
  split
  · exact Memory.writeWord_wf hm
  · exact hm

end Sys2Proof.Machine
end

