-- ==== Sys2Proof/Laws/Ops.lean ====
section
/-! SUPPORT. What the shared operations can do: the object table's slots, the waiters for notice room, the arbitration of pair slots, a
frame heard whole. -/

namespace Sys2Proof.Machine

namespace Table

@[simp] theorem get_put_same (i : Nat) (x : Slot) (l : List (Nat × Slot)) : get i (put i x l) = some x := by
  induction l with
  | nil => simp [put, get]
  | cons p r ih =>
    obtain ⟨j, y⟩ := p
    unfold put
    split
    · simp [get]
    · split
      · simp [get]
      · rename_i h; simp [get, h, ih]

theorem get_put_ne {i j : Nat} (h : i ≠ j) (x : Slot) (l : List (Nat × Slot)) : get i (put j x l) = get i l := by
  induction l with
  | nil => simp [put, get, Ne.symm h]
  | cons p r ih =>
    obtain ⟨k, y⟩ := p
    unfold put
    split
    · simp [get, Ne.symm h]
    · split
      · rename_i h1 h2; subst h2; simp [get, Ne.symm h]
      · simp only [get, ih]

theorem get_free_ne {i j : Nat} (h : i ≠ j) (l : List (Nat × Slot)) : get i (free j l) = get i l := by
  induction l with
  | nil => rfl
  | cons p r ih =>
    obtain ⟨k, y⟩ := p
    unfold free
    split
    · rename_i h2; subst h2; simp [get, Ne.symm h]
    · simp only [get, ih]

theorem get_eq_none_of_not_mem {i : Nat} {l : List (Nat × Slot)} (h : i ∉ l.map Prod.fst) : get i l = none := by
  induction l with
  | nil => rfl
  | cons p r ih =>
    obtain ⟨k, y⟩ := p
    simp only [List.map_cons, List.mem_cons, not_or] at h
    simp [get, Ne.symm h.1, ih h.2]

/-- In a table whose indices are distinct, a freed slot is FREE. -/
theorem get_free_same {i : Nat} {l : List (Nat × Slot)} (h : (l.map Prod.fst).Nodup) : get i (free i l) = none := by
  induction l with
  | nil => rfl
  | cons p r ih =>
    obtain ⟨k, y⟩ := p
    simp only [List.map_cons, List.nodup_cons] at h
    unfold free
    split
    · rename_i h2; subst h2; exact get_eq_none_of_not_mem h.1
    · rename_i h2; simp [get, h2, ih h.2]

end Table

namespace Chip

/-- What the waiters are given (R173, R177): STATION notices for the oldest latches, and nothing else. -/
theorem drainLatches_spec (ls : List Latch) (c : Chip) :
    ∃ given, (drainLatches ls c).notice.queue = c.notice.queue ++ given.map .station ∧
      given ++ (drainLatches ls c).notice.latches = ls := by
  induction ls generalizing c with
  | nil => exact ⟨[], by simp [drainLatches]⟩
  | cons l ls ih =>
    unfold drainLatches
    split
    · obtain ⟨g, h1, h2⟩ := ih (c.queueNotice (.station l))
      exact ⟨l :: g, by rw [h1]; simp [queueNotice], by simp [h2]⟩
    · exact ⟨[], by simp⟩

/-- The queue after the waiters are served. -/
theorem serve_queue (c : Chip) :
    ∃ given, c.serve.notice.queue = c.notice.queue ++ given.map .station ∧ given ++ c.serve.notice.latches = c.notice.latches := by
  obtain ⟨g, h1, h2⟩ := drainLatches_spec c.notice.latches c.grantIntake
  exact ⟨g, by simpa [serve] using h1, by simpa [serve] using h2⟩

/-- An intake that is not HELD is not changed by serving the waiters. -/
theorem serve_intake {c : Chip} (h : c.intake.state ≠ .held) : c.serve.intake = c.intake := by
  simp only [serve, (drainLatches_frame _ _).2.2.2.2.2.2.1]
  unfold grantIntake
  repeat' split
  all_goals simp_all

theorem setContext_context? (c : Chip) (i : Nat) (ctx : Context) : (c.setContext i ctx).context? i = some ctx := by
  simp [context?, setContext]

theorem setContext_context?_ne {c : Chip} {i j : Nat} (h : j ≠ i) (ctx : Context) :
    (c.setContext i ctx).context? j = c.context? j := by
  simp [context?, setContext, Table.get_put_ne h]

@[simp] theorem setAnchor_anchor? (c : Chip) (i : Nat) (ctx : Context) (a : Anchor) :
    (c.setAnchor i ctx a).anchor? i = some ({ ctx with role := .anchor a }, a) := by
  simp [anchor?, setAnchor, setContext_context?]

@[simp] theorem setFeeder_feeder? (c : Chip) (i : Nat) (ctx : Context) (f : Feeder) :
    (c.setFeeder i ctx f).feeder? i = some ({ ctx with role := .feeder f }, f) := by
  simp [feeder?, setFeeder, setContext_context?]

/-- The lookups read the table alone. -/
theorem context?_congr {c d : Chip} (h : d.slots = c.slots) (i : Nat) : d.context? i = c.context? i := by
  simp [context?, h]

theorem anchor?_congr {c d : Chip} (h : d.slots = c.slots) (i : Nat) : d.anchor? i = c.anchor? i := by
  simp [anchor?, context?_congr h]

theorem feeder?_congr {c d : Chip} (h : d.slots = c.slots) (i : Nat) : d.feeder? i = c.feeder? i := by
  simp [feeder?, context?_congr h]

/-- What an arbitration can do to a context: an anchor is left as it is, and a feeder may gain a tally (R131, R132). -/
def onlyTally (x y : Option Context) : Prop :=
  x = y ∨
    ∃ (ctx : Context) (f : Feeder) (tally : Tally), x = some { ctx with role := .feeder f } ∧
      y = some { ctx with role := .feeder { f with tally := some tally, moved := none } }

theorem context?_of_feeder? {c : Chip} {i : Nat} {ctx : Context} {f : Feeder} (h : c.feeder? i = some (ctx, f)) :
    c.context? i = some ctx ∧ ctx.role = .feeder f := by
  unfold feeder? at h
  split at h
  · split at h
    · simp at h
    · simp_all
  · simp at h

theorem context?_of_anchor? {c : Chip} {i : Nat} {ctx : Context} {a : Anchor} (h : c.anchor? i = some (ctx, a)) :
    c.context? i = some ctx ∧ ctx.role = .anchor a := by
  unfold anchor? at h
  split at h
  · split at h
    · simp_all
    · simp at h
  · simp at h

/-- The table after a tally is formed (R132). -/
theorem formTally_slots {c : Chip} {i : Nat} {ctx : Context} {f : Feeder} (h : c.feeder? i = some (ctx, f)) :
    ∃ t, (c.formTally i).slots =
      Table.put i (.live { ctx with role := .feeder { f with tally := some t, moved := none } }) c.slots := by
  unfold formTally
  rw [h]
  exact ⟨_, by simp [setFeeder, setContext]; rfl⟩

theorem formTally_context? (c : Chip) (i j : Nat) : onlyTally (c.context? j) ((c.formTally i).context? j) := by
  cases h : c.feeder? i with
  | none => left; simp [formTally, h]
  | some p =>
    obtain ⟨ctx, f⟩ := p
    obtain ⟨hc, hr⟩ := context?_of_feeder? h
    obtain ⟨t, ht⟩ := formTally_slots h
    by_cases hj : j = i
    · subst hj
      refine .inr ⟨ctx, f, t, ?_, ?_⟩
      · rw [hc, ← hr]
      · simp [context?, ht]
    · left
      simp [context?, ht, Table.get_put_ne hj]

theorem onlyTally.trans {x y z : Option Context} (h1 : onlyTally x y) (h2 : onlyTally y z) : onlyTally x z := by
  obtain rfl | ⟨ctx, f, t, rfl, rfl⟩ := h1
  · exact h2
  · obtain rfl | ⟨ctx', f', t', h, rfl⟩ := h2
    · exact .inr ⟨ctx, f, t, rfl, rfl⟩
    · obtain ⟨tag, k, cv, l, p, r, id, ro⟩ := ctx
      obtain ⟨tag', k', cv', l', p', r', id', ro'⟩ := ctx'
      simp only [Option.some.injEq, Context.mk.injEq, Role.feeder.injEq] at h
      obtain ⟨rfl, rfl, rfl, rfl, rfl, rfl, rfl, rfl⟩ := h
      exact .inr ⟨⟨tag, k, cv, l, p, r, id, ro⟩, f, t', rfl, rfl⟩

theorem arbitrateStation_context? (c : Chip) (x : Station) (j : Nat) :
    onlyTally (c.context? j) ((c.arbitrateStation x).context? j) := by
  unfold arbitrateStation
  split
  · split
    · exact formTally_context? c _ j
    · exact .inl rfl
  · exact .inl rfl

theorem arbitrate_context? (c : Chip) (j : Nat) : onlyTally (c.context? j) (c.arbitrate.context? j) := by
  unfold arbitrate
  generalize stations = l
  induction l generalizing c with
  | nil => exact .inl rfl
  | cons x l ih => exact (arbitrateStation_context? c x j).trans (ih _)

/-- An event's arbitration and the serving of its waiters leave every anchor as it is. -/
theorem settleEvent_anchor? (c : Chip) (i : Nat) : c.settleEvent.anchor? i = c.anchor? i := by
  have h : c.settleEvent.context? i = c.arbitrate.context? i := context?_congr (by simp [settleEvent]) i
  unfold anchor?
  rw [h]
  obtain h | ⟨ctx, f, t, h1, h2⟩ := arbitrate_context? c i
  · rw [h]
  · rw [h1, h2]

/-- A feeder keeps everything but its tally. -/
theorem settleEvent_feeder? {c : Chip} {i : Nat} {ctx : Context} {f : Feeder} (hf : c.feeder? i = some (ctx, f)) :
    ∃ tally moved, c.settleEvent.feeder? i =
      some ({ ctx with role := .feeder { f with tally := tally, moved := moved } }, { f with tally := tally, moved := moved }) := by
  obtain ⟨hc, hr⟩ := context?_of_feeder? hf
  have h : c.settleEvent.context? i = c.arbitrate.context? i := context?_congr (by simp [settleEvent]) i
  unfold feeder?
  rw [h]
  obtain h | ⟨ctx', f', t, h1, h2⟩ := arbitrate_context? c i
  · refine ⟨f.tally, f.moved, ?_⟩
    obtain ⟨tag, k, cv, l, p, r, id, ro⟩ := ctx
    simp only at hr
    subst hr
    rw [← h, hc]
  · rw [hc, Option.some.injEq] at h1
    subst h1
    simp only [Role.feeder.injEq] at hr
    subst hr
    exact ⟨some t, none, by rw [h2]⟩

/-- A frame of a kind heard whole and valid (R87): its presence and hold effects, then what the row makes of it. -/
theorem hear_valid {c : Chip} {k : FrameKind} {f : HeardFrame} {g : Chip → Chip} (h1 : c.hearing = true)
    (h2 : framed f = true) (h3 : frameFault c.self f = false) (h4 : f.kind = k.code) :
    c.hear k f g = g (c.frameEnds.validFrom f.src) := by
  simp [hear, h1, h2, h3, h4]

/-- An event that forms no tally leaves queues and pair slots as they stand. -/
theorem arbitratedOnly_refl (c : Chip) : c.arbitratedOnly c :=
  ⟨fun _ _ => rfl, List.prefix_rfl, fun _ => .inl ⟨rfl, rfl⟩⟩

/-- Tallies formed in two turns are tallies formed: a pair slot that the first has taken the second leaves. -/
theorem arbitratedOnly_trans {c d e : Chip} (h : c.arbitratedOnly d) (k : d.arbitratedOnly e) : c.arbitratedOnly e := by
  refine ⟨fun q hq => (k.1 q hq).trans (h.1 q hq), h.2.1.trans k.2.1, fun x => ?_⟩
  obtain ⟨hp, hn⟩ | ⟨hp, hd, hn⟩ := h.2.2 x
  · simpa only [hp, hn] using k.2.2 x
  · obtain ⟨kp, kn⟩ | ⟨kp, -, -⟩ := k.2.2 x
    · exact .inr ⟨hp, kp ▸ hd, kn ▸ hn⟩
    · exact absurd kp hd

/-- A schedule point may offer a BEACON (R98): none stands in class 3, and none is on the wire. -/
theorem beaconWaits_eq_false {c : Chip} :
    c.beaconWaits = false ↔
      c.link.queues[(3 : Fin 4)].any isBeacon = false ∧ ∀ w, c.link.wire = some w → isBeacon w.frame = false := by
  cases h : c.link.wire <;> simp [beaconWaits, h]

end Chip

/-- What the emptied queue leaves of the reading of the consumer word (R181, R182): a read in progress, and no reread. -/
theorem Poll.emptied_eq (p : Poll) : p.emptied = if p = .reading then .reading else .idle := by
  cases p <;> rfl

end Sys2Proof.Machine
end

