-- ==== Sys2Proof/Laws/Reads.lean ====
section
/-! SUPPORT. What the station's derived readings depend on: each is the same in two stations that agree on the named parts. -/

namespace Sys2Proof.Machine

namespace Chip

variable {c d : Chip}

theorem params_congr (h : d.cmd.setup = c.cmd.setup) : d.params = c.params := by simp [params, h]

theorem interval_congr (h : d.cmd.setup = c.cmd.setup) : d.interval = c.interval := by simp [interval, params_congr h]

theorem eighth_congr (h : d.cmd.setup = c.cmd.setup) : d.eighth = c.eighth := by simp [eighth, interval_congr h]

theorem idleTime_congr (h : d.cmd.setup = c.cmd.setup) : d.idleTime = c.idleTime := by simp [idleTime, params_congr h]

theorem ring_congr (h : d.cmd.setup = c.cmd.setup) (cls : BufClass) : d.ring cls = c.ring cls := by
  simp [ring, params_congr h]

theorem bufferClass_congr (h : d.cmd.setup = c.cmd.setup) (k : Nat) : d.bufferClass k = c.bufferClass k := by
  simp [bufferClass, params_congr h]

theorem pool_congr (h1 : d.small = c.small) (h2 : d.large = c.large) (cls : BufClass) : d.pool cls = c.pool cls := by
  cases cls <;> simp [pool, h1, h2]

theorem synced_congr (h : d.link.state = c.link.state) : d.synced = c.synced := by simp [synced, h]

theorem hasRoom_congr (h1 : d.notice.queue = c.notice.queue) (h2 : d.notice.re = c.notice.re)
    (h3 : d.notice.rb = c.notice.rb) : d.hasRoom = c.hasRoom := by
  simp [hasRoom, h1, h2, h3]

theorem blockRoom_congr (h1 : d.notice.queue = c.notice.queue) (h2 : d.notice.re = c.notice.re)
    (h3 : d.notice.rb = c.notice.rb) : d.blockRoom = c.blockRoom := by
  simp [blockRoom, hasRoom_congr h1 h2 h3, h3]

theorem unreservedRoom_congr (h1 : d.notice.queue = c.notice.queue) (h2 : d.notice.re = c.notice.re)
    (h3 : d.notice.rb = c.notice.rb) : d.unreservedRoom = c.unreservedRoom := by
  unfold unreservedRoom unreserved
  rw [hasRoom_congr h1 h2 h3, h1]

theorem modeQueuesStation_congr (h : d.cmd.mode = c.cmd.mode) (h' : d.cmd.setup = c.cmd.setup) :
    d.modeQueuesStation = c.modeQueuesStation := by
  simp [modeQueuesStation, h, h']

theorem hasPlace_congr (h : d.link.queues = c.link.queues) (q : Fin 4) : d.hasPlace q = c.hasPlace q := by
  simp [hasPlace, h]

theorem isQueued_congr (h : d.link.queues = c.link.queues) (h' : d.link.wire = c.link.wire) (q : Fin 4) (p : Frame → Bool) :
    d.isQueued q p = c.isQueued q p := by
  simp [isQueued, onWire, h, h']

theorem cached_congr (h : d.cache = c.cache) (t : Tag) : d.cached t = c.cached t := by simp [cached, h]

theorem isRetired_congr (h : d.retired = c.retired) (t : Tag) : d.isRetired t = c.isRetired t := by simp [isRetired, h]

theorem ringFull_congr (h : d.notice.pn = c.notice.pn) (h' : d.notice.cn = c.notice.cn) (h'' : d.cmd.setup = c.cmd.setup) :
    d.ringFull = c.ringFull := by
  simp [ringFull, h, h', params_congr h'']

/-- The pool of a class after it is set. -/
@[simp] theorem withPool_pool (c : Chip) (cls : BufClass) (p : BufferPool) : (c.withPool cls p).pool cls = p := by
  cases cls <;> simp [withPool, pool]

theorem withPool_pool_ne {cls other : BufClass} (h : other ≠ cls) (p : BufferPool) :
    (c.withPool cls p).pool other = c.pool other := by
  cases cls <;> cases other <;> simp_all [withPool, pool]

/-- A refill test changes the refill alone (R159). -/
theorem testRefill_pool (c : Chip) (cls : BufClass) :
    ((c.testRefill cls).pool cls).cache = (c.pool cls).cache ∧ ((c.testRefill cls).pool cls).stack = (c.pool cls).stack ∧
      ((c.testRefill cls).pool cls).cons = (c.pool cls).cons := by
  unfold testRefill
  split <;> simp

theorem testRefill_pool_ne {cls other : BufClass} (h : other ≠ cls) : (c.testRefill cls).pool other = c.pool other := by
  unfold testRefill
  split
  · exact withPool_pool_ne h _
  · rfl

end Chip

end Sys2Proof.Machine
end

