-- ==== Sys2Proof/WellFormed.lean ====
section
/-! DEFINITION. Well-formed commands: a command of a row carries operands that the row can carry (opcode_table.json; R200, R201, R204).
The meanings are total; an ill-formed command has no effect of its row (log 32). -/

namespace Sys2Proof

namespace HeardFrame

/-- The receiver can place the frame's end (R88), its CRC and class fit, and its kind is `k` with a body of that kind (R89, R201). -/
def isKind (f : HeardFrame) (k : Machine.FrameKind) : Bool :=
  Machine.framed f && f.crc = Machine.frameCrc f.kind f.body && f.kind = k.code && f.cls.toNat = k.cls.val
    && Machine.lengthFits k f.body

/-- A COMMAND of station 0 (R89) of a row (R204). -/
def isCommand (f : HeardFrame) (row : Machine.CommandRow) : Bool :=
  f.isKind .command && f.src = 0 && Machine.commandRow f.body = row

end HeardFrame

/-- The command is well formed. -/
def Instr.wellFormed : Instr → Bool
  | .pinReset => true
  | .pinResetRelease _ => true
  | .segmentHeader _ => true
  | .tableWalkDone => true
  | .closeFlag _ => true
  | .payloadByte _ => true
  | .discardByte _ => true
  | .discardFlag _ => true
  | .landingFlag _ => true
  | .intakeRoomGranted => true
  | .validIdle => true
  | .arbitrationLost => true
  | .frameSent => true
  | .collision => true
  | .falseStart => true
  | .longFrame => true
  | .badFrame f => Machine.framed f
  | .linkSettleDone => true
  | .holdTimerExpiry => true
  | .beaconPoint => true
  | .presenceExpiry _ => true
  | .beaconHeard f => f.isKind .beacon
  | .answerHeard f => f.isKind .answer
  | .claimHeard f => f.isKind .claim
  | .reassertHeard f => f.isKind .reassert
  | .releaseHeard f => f.isKind .release
  | .tallyReceived f => f.isKind .tally
  | .verdictReceived f => f.isKind .verdict
  | .batchDelayExpiry i => i < Config.tableSlots
  | .settleExpiry i => i < Config.tableSlots
  | .anchorIdleExpiry i => i < Config.tableSlots
  | .feederIdleExpiry i => i < Config.tableSlots
  | .verdictTimerExpiry i => i < Config.tableSlots
  | .holdWaitExpiry i => i < Config.tableSlots
  | .setupPart f => f.isCommand .setupPart
  | .go f => f.isCommand .go
  | .powerTableReady => true
  | .query f => f.isCommand .query
  | .abort f => f.isCommand .abort
  | .quiesce f => f.isCommand .quiesce
  | .resume f => f.isCommand .resume
  | .counters f => f.isCommand .counters
  | .restart f => f.isCommand .restart
  | .badCommand f => f.isCommand .bad
  | .restartGather => true
  | .producerWordArrives _ _ => true
  | .ringEntryArrives _ entry => entry.value.length = 16
  | .consumerWordWritten _ => true
  | .noticeWriteBegin => true
  | .noticeWriteEnd => true
  | .payloadWriteDone _ n => 0 < n
  | .consumerPollExpiry => true
  | .consumerWordArrives _ => true
  | .headerByte _ => true
  | .closePayloadByte _ => true
  | .mediumLeavesValidIdle _ => true

end Sys2Proof
end

