-- ==== Sys2Proof/Tests/Slice0.lean ====
section
/-! SUPPORT. Tests of the model: ill-formed commands that WellFormed refuses, the spec's worked figures, one step of each command, and
one witness for the hypotheses of each statement and of each of its clauses. Expected results are taken from the spec's worked
examples, named in the docstrings, or by hand from its rules. -/

namespace Sys2Proof.Tests

open Sys2Proof.Machine

-- One theorem is checked after the other: the kernel's evaluations side by side ask for too many threads.
set_option Elab.async false

/-! ## Small states -/

def tagT : Tag := { session := 0x11, object := 0x22 }

def tagU : Tag := { session := 0x11, object := 0x23 }

/-- The setup of 12.1, with small rings of 64 entries. -/
def setupA : Setup :=
  { weight := 2, smallSize := 512, extentCap := 32, frontStep := 64, idleLimit := 200, ringSmall := ⟨0x1000, 64, 0x100, 0x104⟩,
    ringLarge := ⟨0x2000, 64, 0x108, 0x10C⟩, ringNotice := ⟨0x3000, 64, 0x110, 0x114⟩, beaconInterval := 100, claimSettle := 32,
    verdictTimeout := 200, batchDelay := 20, filterMode := .opened, filterTags := [0x99] }

def handleA : Handle := { cls := .small, addr := 0x8000, index := 7, copy := 0 }

def handleB : Handle := { cls := .small, addr := 0x9000, index := 8, copy := 1 }

/-- Station 2, RUNNING and SYNCED at t = 1000, with stations 1 and 3 PRESENT, table READY and two SMALL handles cached. -/
def station : Chip :=
  { Chip.reset with
    inReset := false, self := 2, now := 1000,
    cmd := { CommandUnit.reset with mode := .running, setup := some setupA },
    fold := { FoldUnit.reset with table := .ready, entries := powerTable 2 },
    link := { Link.reset with
      state := .synced, hold := .running 1500, nextPoint := .running 1040,
      presence := ((Vector.replicate 8 Presence.reset).set 1
        { present := true, countdown := .running 1400, lastBeacon := some 254, missed := 0 }).set 3
        { present := true, countdown := .running 1300, lastBeacon := none, missed := 0 } },
    small := { BufferPool.reset with cache := [handleA, handleB] }, handlesTaken := 2 }

/-- A station released from reset, WAITING-SETUP and SEEKING. -/
def fresh : Chip := { Chip.reset with inReset := false, self := 2 }

/-- The same in SETTLING, where frames are taken. -/
def tuned : Chip := { fresh with link := { fresh.link with state := .settling, settle := .running 40 } }

def on (c : Chip) : State := { chip := c, mem := [], pending := [] }

/-- The station after a command, and the memory after it. -/
def after (i : Instr) (c : Chip) : Chip :=
  match exec i (on c) with
  | .next t => t.chip
  | _ => Chip.reset

def memAfter (i : Instr) (c : Chip) : Memory :=
  match exec i (on c) with
  | .next t => t.mem
  | _ => []

/-- The station with one context, at index 0. -/
def holding (ctx : Context) (c : Chip) : Chip :=
  { c with slots := [(0, .live ctx)], extFree := 4096 - ctx.cover.length, notice := { c.notice with re := 1 } }

def anchorPart (st : AnchorState) : Anchor := { Anchor.fresh with state := st }

def context (cover : List Extent) (role : Role) : Context :=
  { tag := tagT, sizeCode := 0, cover := cover, localDup := 0, peerDup := 0, refused := 0, idle := .running 900000, role := role }

/-- An OPEN anchor for T with coverage [0, 10). -/
def openAnchor : Anchor := { anchorPart .opened with accepted := 10, sum := 5 }

def openContext : Context := context [⟨0, 10⟩] (.anchor openAnchor)

def anchoring : Chip := holding openContext station

def itemOf (k : Nat) (h : Handle) : BlockItem := { block := k, length := 512, sum := 1, handle := h }

/-- A CLAIMING anchor for T that holds block 4, its CLAIM sent or not. -/
def claimAnchor (sent : Bool) : Anchor :=
  { anchorPart .claiming with
    accepted := 1, sum := 1, provisional := [itemOf 4 handleA], claimSent := sent,
    settle := if sent then .running 1032 else .stopped }

def claimContext (sent : Bool) : Context := context [⟨4, 1⟩] (.anchor (claimAnchor sent))

def claiming (sent : Bool) : Chip :=
  let c := holding (claimContext sent) station
  let queues := if sent then c.link.queues else c.link.queues.set 1 [.claim tagT]
  { c with notice := { c.notice with rb := 1 }, link := { c.link with queues := queues } }

def entryOf (k : Nat) (h : Handle) : Entry := { body := .block (itemOf k h), joined := 980 }

/-- A feeder of station 1 for T with advisory list [10, 12) and two entries. -/
def feedPart : Feeder := { Feeder.fresh 1 with entries := [entryOf 10 handleA, entryOf 11 handleB] }

def feedContext : Context := context [⟨10, 2⟩] (.feeder feedPart)

def feeding : Chip :=
  let c := holding feedContext station
  { c with pendFree := 254, notice := { c.notice with rb := 2 } }

def tallyOf (st : TallyStage) (sends : Nat) : Tally :=
  { dest := 1, seq := 41, size := 2, sends := sends, visited := 2, stage := st, timer := .running 1200 }

def tallied (y : Tally) : Feeder := { feedPart with tally := some y }

def tallyContext (y : Tally) : Context := context [⟨10, 2⟩] (.feeder (tallied y))

/-- The same feeder with tally 41 outstanding to station 1. -/
def waiting (y : Tally) : Chip :=
  let c := holding (tallyContext y) station
  { c with pendFree := 254, pair := c.pair.set 1 (some 0), nextSeq := c.nextSeq.set 1 42, notice := { c.notice with rb := 2 } }

/-! ## Frames and headers -/

def heard (k : FrameKind) (x : Station) (body : List Byte) : HeardFrame :=
  { cls := BitVec.ofNat 2 k.cls.val, src := x, kind := k.code, body := body, crc := frameCrc k.code body }

/-- A COMMAND that names every station, number 9. -/
def command (kind : Byte) (rest : List Byte) : HeardFrame :=
  heard .command 0 ([0xFF, 9, kind] ++ rest)

def verdictTo (v : Verdict) : HeardFrame :=
  heard .verdict 1 ({ tag := tagT, seq := 41, dest := 2, verdict := v } : VerdictBody).bytes

def tallyBody (entries : List TallyEntry) : TallyBody :=
  { tag := tagT, seq := 41, dest := 2, sizeCode := 0, entries := entries }

def tallyFrom (entries : List TallyEntry) : HeardFrame :=
  heard .tally 3 (tallyBody entries).bytes

/-- The first 31 bytes of the header of block 2 of T, 3 bytes, size code 0; the words add to 0139H, so the check is FEC6H (R4). -/
def dataHeader : List Byte :=
  [1, 1, 0, 0, 0, 0, 0, 0x11, 0, 0, 0, 0x22, 0, 0, 0, 2, 0, 0, 0, 3, 0, 0, 0, 0, 0, 0, 0, 0, 0, 0, 0xFE]

/-- The first 31 bytes of a CLOSE of T with L = 0 and E = 0; the words add to 0234H, so the check is FDCBH (R4). -/
def closeHeader : List Byte :=
  [2, 1, 0, 0, 0, 0, 0, 0x11, 0, 0, 0, 0x22, 0, 0, 0, 0, 0, 0, 0, 0, 0, 0, 0, 0, 0, 0, 0, 0, 0, 0, 0xFD]

def withHeader (bytes : List Byte) (c : Chip) : Chip := { c with intake := { c.intake with headerBytes := bytes } }

def segment (kind : SegKind) (k n l e : Nat) : Segment :=
  Chip.segmentOf { kind := kind, sizeCode := 0, tag := tagT, block := k, length := n, objLength := l, fold := e } 255

def withSegment (st : IntakeState) (g : Segment) (c : Chip) : Chip := { c with intake := { c.intake with state := st, seg := some g } }

/-- A DATA segment of T in LANDING with its whole payload taken and its block sum formed. -/
def landed (k n sum : Nat) : Segment :=
  { segment .data k n 0 0 with
    slot := some 0, extentRes := true, blockRes := true, handle := some handleA, taken := n, sum := some sum }

/-! ## WellFormed refuses an ill-formed command of each check -/

theorem test_wellFormed_good_beacon : (Instr.beaconHeard (heard .beacon 1 [1, 7])).wellFormed = true := by decide +kernel
theorem test_wellFormed_bad_crc :
    (Instr.beaconHeard { heard .beacon 1 [1, 7] with crc := 0 }).wellFormed = false := by decide +kernel
theorem test_wellFormed_bad_kind : (Instr.beaconHeard (heard .claim 1 (tagBytes tagT))).wellFormed = false := by decide +kernel
theorem test_wellFormed_bad_class :
    (Instr.beaconHeard { heard .beacon 1 [1, 7] with cls := 0 }).wellFormed = false := by decide +kernel
theorem test_wellFormed_bad_length : (Instr.claimHeard (heard .claim 1 [1, 2, 3])).wellFormed = false := by decide +kernel
theorem test_wellFormed_too_long : (Instr.badFrame (heard .beacon 1 (zeros 129))).wellFormed = false := by decide +kernel
theorem test_wellFormed_wrong_row : (Instr.go (command 8 [])).wellFormed = false := by decide +kernel
theorem test_wellFormed_command_of_station_1 : (Instr.go (heard .command 1 [0xFF, 9, 2])).wellFormed = false := by decide +kernel
theorem test_wellFormed_slot : (Instr.settleExpiry 256).wellFormed = false := by decide
theorem test_wellFormed_ring_entry : (Instr.ringEntryArrives .small ⟨0x1000, zeros 15⟩).wellFormed = false := by decide
theorem test_wellFormed_no_payload : (Instr.payloadWriteDone handleA 0).wellFormed = false := by decide

/-! ## Worked figures of the spec -/

/-- 02 section 2.8: entries 0..5 of the power table of W = 2. -/
theorem test_powerTable_two : (powerTable 2).take 6 = [2, 4, 16, 256, 65536, 2] ∧ (powerTable 2).length = 31 := by decide

/-- 02, Case 1: block 2 of size code 0 has e = 512 and r_0 = 65536, and symbols 1 and 2 give 327680. -/
theorem test_blockSum_case1 : firstExponent 2 0 = 512 ∧ blockSum 2 2 0 [0, 1, 0, 2] = 327680 := by decide

/-- 02, Case 3: e = 631242904 and r_0 = 1024. -/
theorem test_exponent_case3 :
    firstExponent 5000000 7 = 631242904 ∧ firstPower (powerTable 2) 631242904 = 1024 := by decide

/-- 02, Cases 2 and 5: reductions, the last three through 2^31 or P. -/
theorem test_foldReduce_cases :
    foldReduce 70367670435840 = 1073774591 ∧ foldReduce 2147483647 = 0 ∧ foldReduce 4294967294 = 0 ∧
      foldReduce 4294967295 = 1 ∧ foldReduce (2 ^ 62 - 1) = 0 := by decide

/-- 02, Case 4: combining block sums. -/
theorem test_addFold_case4 : addFold 327680 2147483000 = 327033 ∧ addFold 2147483000 647 = 0 ∧ addFold 0 0 = 0 := by decide

/-- 02, Cases 6 and 7: odd short blocks. -/
theorem test_blockSum_odd : blockSum 2 0 0 [0, 1, 2] = 1025 ∧ blockSum 2 2 0 [0, 2, 5] = 167903232 := by decide

/-- 04 section 4.9: block 4 bridges, block 12 is new, block 2 bridges to [0, 6). -/
theorem test_coverage_4_9 :
    Coverage.insert 4 [⟨0, 1⟩, ⟨3, 1⟩, ⟨5, 1⟩, ⟨9, 1⟩] = [⟨0, 1⟩, ⟨3, 3⟩, ⟨9, 1⟩] ∧
      Coverage.place [⟨0, 1⟩, ⟨3, 3⟩, ⟨9, 1⟩] 12 = .fresh ∧
      Coverage.front (Coverage.insert 2 [⟨0, 2⟩, ⟨3, 3⟩, ⟨9, 1⟩, ⟨12, 1⟩]) = 6 := by decide

/-- 04 section 4.9: a list at its cap has no extent for block 12. -/
theorem test_noExtent_4_9 : noExtent [⟨0, 1⟩, ⟨3, 1⟩, ⟨5, 1⟩, ⟨9, 1⟩] 12 3996 4 = true := by decide

/-- 03 section 3.10: the close of L = 1124 passes, L = 1200 fails SHAPE, L = 1024 fails OVERRUN, size code 1 fails SHAPE. -/
theorem test_closeFault_3_10 :
    let a : Anchor := { anchorPart .opened with shortMark := some (2, 100) }
    let cover : List Extent := [⟨0, 1⟩, ⟨2, 1⟩]
    closeFault 0 cover a 0 (closeRecord 1124 0 0) = none ∧ closeFault 0 cover a 0 (closeRecord 1200 0 0) = some .shape ∧
      closeFault 0 cover a 0 (closeRecord 1024 0 0) = some .overrun ∧
      closeFault 0 cover a 1 (closeRecord 1124 0 1) = some .shape := by decide

/-- 05, three contenders: the class bits of station 5's CLAIM beat station 3's TALLY and station 1's BEACON. -/
theorem test_three_contenders :
    winsArbitration (arbitrationBits 1 5) (arbitrationBits 2 3) = true ∧
      winsArbitration (arbitrationBits 1 5) (arbitrationBits 3 1) = true ∧
      winsArbitration (arbitrationBits 3 1) (arbitrationBits 0 1) = false := by decide

/-- 05 R84: five recessive bits are followed by a dominant one, also at the end of the fields. -/
theorem test_stuff : stuff [true, true, true, true, true] = [true, true, true, true, true, false] := by decide

/-- 08 section 8.12: 19 handles give notices of 4, 4, 4, 4 and 3. -/
theorem test_fours_8_12 : (fours (List.replicate 19 handleA)).map List.length = [4, 4, 4, 4, 3] := by decide

/-! ## One step of each command -/

theorem test_pinReset : (after .pinReset anchoring).cmd.mode = .waitingSetup ∧ (after .pinReset anchoring).slots = [] := by decide
theorem test_pinResetRelease_strap0 :
    (after (.pinResetRelease 0) Chip.reset).cmd.faultPin = true ∧ (after (.pinResetRelease 0) Chip.reset).inReset = false := by
  decide
theorem test_pinResetRelease_strap5 : (after (.pinResetRelease 5) Chip.reset).self = 5 := by decide

theorem test_headerByte : (after (.headerByte 1) station).intake.headerBytes = [1] := by decide

/-- 12.2, row 1: CLAIMING, CLAIM(T) queued in class 1, Re 1; the segment lands. -/
theorem test_segmentHeader_claims :
    (after (.segmentHeader 0xC6) (withHeader dataHeader station)).link.queues[(1 : Fin 4)] = [.claim tagT] ∧
      (after (.segmentHeader 0xC6) (withHeader dataHeader station)).notice.re = 1 := by decide
/-- R4: a wrong check byte is dropped HEADER (counter 0). -/
theorem test_segmentHeader_bad_check :
    (after (.segmentHeader 0xC7) (withHeader dataHeader station)).cmd.counters[0] = 1 := by decide

/-- 02, Case 1: r_0 of block 2. -/
theorem test_tableWalkDone :
    (after .tableWalkDone (withSegment .landing { landed 2 3 0 with taken := 0, sum := none }
      { station with fold := { station.fold with walk := some 512 } })).fold.power = some 65536 := by decide

/-- 02, Case 8: the zero-length object ends VERIFIED with E = 0, and MISMATCH with E = 5. -/
theorem test_closeFlag_zero_length :
    (after (.closeFlag true) (withSegment .deciding (segment .close 0 0 0 0)
      (holding (context [] (.anchor (anchorPart .opened))) station))).link.queues[(1 : Fin 4)] = [.release tagT .verified] := by decide
theorem test_closeFlag_zero_length_mismatch :
    (after (.closeFlag true) (withSegment .deciding (segment .close 0 0 0 5)
      (holding (context [] (.anchor (anchorPart .opened))) station))).link.queues[(1 : Fin 4)] = [.release tagT .mismatch] := by decide

theorem test_closePayloadByte :
    let c := after (.closePayloadByte 1) (withSegment .deciding (segment .close 0 0 0 0) station)
    c.cmd.counters[7] = 1 ∧ c.intake.state = .discarding := by decide

/-- 02, Case 6: the last byte, 02H, of an odd payload completes the symbol 0200H; the block sum is 1025. -/
theorem test_payloadByte_odd_end :
    let c := after (.payloadByte 2) (withSegment .landing { landed 0 3 0 with taken := 2, sum := none }
      { station with fold := { station.fold with acc := 1, power := some 2, folded := 2 } })
    (c.intake.seg.bind Segment.sum) = some 1025 ∧ c.payloadWrites = [{ handle := handleA, addr := 0x8002, data := 2 }] := by decide

theorem test_discardByte : after (.discardByte 3) station = station := by decide
theorem test_discardFlag :
    (after (.discardFlag false) { station with intake := { station.intake with state := .discarding } }).intake.state
      = .awaitHeader := by decide

/-- 12.2, row 2: block 2 completes: coverage [2, 3), sum 167903232, accepted 1, short mark (2, 3). -/
theorem test_landingFlag_provisional :
    ((after (.landingFlag true) (withSegment .landing (landed 2 3 167903232)
      (holding (context [] (.anchor (anchorPart .claiming))) station))).anchor? 0).map
        (fun p => (p.1.cover, p.2.sum, p.2.accepted, p.2.shortMark)) = some ([⟨2, 1⟩], 167903232, 1, some (2, 3)) := by decide
/-- 08 section 8.11: a BAD flag; WIRE drop; the handle goes on the stack. -/
theorem test_landingFlag_bad :
    let c := after (.landingFlag false) (withSegment .landing (landed 2 3 0) anchoring)
    c.small.stack = [handleA] ∧ c.cmd.counters[7] = 1 := by decide

/-- 09 section 9.7: the intake resumes and is refused again for room. -/
theorem test_intakeRoomGranted_refused_again :
    (after .intakeRoomGranted (withSegment .deciding { segment .data 20 512 0 0 with granted := true }
      { anchoring with notice := { anchoring.notice with re := 512 } })).intake.state = .held := by decide

/-- 12.3, row 3: the head of class 1 is begun. -/
theorem test_validIdle_begins : ((after .validIdle (claiming false)).link.wire.map Wire.frame) = some (.claim tagT) := by decide
theorem test_validIdle_leaves_seeking : (after .validIdle fresh).link.state = .settling := by decide

def claimWire : Wire := { cls := 1, frame := .claim tagT, queued := true, withdraw := false }

def onWireClaim : Chip :=
  let c := claiming false
  { c with link := { c.link with wire := some claimWire } }

/-- 12.3, rows 3 and 6: a loser's CLAIM is back at the head; a sent CLAIM leaves and the settle timer runs to +32 µs. -/
theorem test_arbitrationLost : (after .arbitrationLost onWireClaim).link.queues[(1 : Fin 4)] = [.claim tagT] := by decide
theorem test_frameSent_claim :
    ((after .frameSent onWireClaim).anchor? 0).map (fun p => p.2.settle) = some (.running 1032) ∧
      (after .frameSent onWireClaim).link.queues[(1 : Fin 4)] = [] := by decide

theorem test_collision_strike : (after .collision onWireClaim).link.strike = true := by decide
theorem test_collision_second :
    let c := after .collision { onWireClaim with link := { onWireClaim.link with strike := true } }
    c.cmd.mode = .faulted ∧ c.cmd.faultPin = true := by decide

theorem test_falseStart : (after .falseStart station).cmd.counters[8] = 1 := by decide
theorem test_longFrame : (after .longFrame station).cmd.counters[9] = 1 := by decide
theorem test_badFrame : (after (.badFrame { heard .beacon 1 [1, 7] with crc := 0 }) station).cmd.counters[10] = 1 := by decide +kernel

def settling : Chip :=
  { station with link := { station.link with state := .settling, settle := .running 1030, hold := .stopped, nextPoint := .stopped } }

/-- R98: the first point of station 2 falls 2 × (100 / 8) = 24 µs later. -/
theorem test_linkSettleDone :
    (after .linkSettleDone settling).link.state = .synced ∧ (after .linkSettleDone settling).link.nextPoint = .running 1054 := by
  decide
theorem test_holdTimerExpiry :
    (after .holdTimerExpiry station).link.state = .seeking ∧ (after .holdTimerExpiry station).now = 1500 := by decide
theorem test_beaconPoint :
    (after .beaconPoint station).link.queues[(3 : Fin 4)] = [.beacon 2 0] ∧
      (after .beaconPoint station).link.nextPoint = .running 1140 := by decide

/-- R98: a BEACON on the wire bars an offer, also when RESTART has emptied its queue. -/
theorem test_beaconPoint_on_wire :
    let c := { station with link := { station.link with wire := some { cls := 3, frame := .beacon 2 0, queued := false, withdraw := false } } }
    (after .beaconPoint c).link.queues[(3 : Fin 4)] = [] ∧ (after .beaconPoint c).link.beaconCount = 1 := by decide

/-- 09 section 9.7: with no room a PEER-ABSENT event is latched, count 1, set {1}. -/
theorem test_presenceExpiry_latched :
    (after (.presenceExpiry 1) { station with notice := { station.notice with re := 512 } }).notice.latches =
      [{ event := .peerAbsent, concerned := 1, set := 2, count := 1 }] := by decide
/-- R101, R151: the feeder of an absent anchor station is orphaned, and its handles are recycled. -/
theorem test_presenceExpiry_orphans :
    (after (.presenceExpiry 1) feeding).slots = [] ∧ (after (.presenceExpiry 1) feeding).small.stack = [handleB, handleA] := by
  decide

/-- R100: count 1 after 254 skips 255 and 0. -/
theorem test_beaconHeard_missed :
    (after (.beaconHeard (heard .beacon 1 [1, 1])) station).link.presence[1].missed = 2 := by decide +kernel
/-- R99: the reference's BEACON realigns to 1000 + (2 - 1) × 12, and with an own frame on the wire it does not. -/
theorem test_beaconHeard_realigns :
    let c := { station with link := { station.link with wire := some { cls := 3, frame := .beacon 2 0, queued := true, withdraw := false } } }
    (after (.beaconHeard (heard .beacon 1 [1, 1])) station).link.nextPoint = .running 1012 ∧
      (after (.beaconHeard (heard .beacon 1 [1, 1])) c).link.nextPoint = .running 1040 := by decide +kernel
theorem test_answerHeard_present :
    (after (.answerHeard (heard .answer 5 [5, 2, 1, 5, 9, 0])) station).link.presence[5].present = true := by decide +kernel

/-- 12.3, row 6: the CLAIM is withdrawn and the context feeds the claimant with entry BLOCK 4; R117: every queued REASSERT(T) is
withdrawn. -/
theorem test_claimHeard_converts :
    let c0 := claiming false
    let c := after (.claimHeard (heard .claim 3 (tagBytes tagT)))
      { c0 with link := { c0.link with queues := c0.link.queues.set 0 [.reassert tagT, .reassert tagU, .reassert tagT] } }
    (c.feeder? 0).map (fun p => (p.2.anchor, itemsOf p.2.entries)) = some (3, [itemOf 4 handleA]) ∧
      c.link.queues[(1 : Fin 4)] = [] ∧ c.link.queues[(0 : Fin 4)] = [.reassert tagU] := by decide +kernel
/-- 12.4, t = 12: a CLAIM heard after one's own was sent draws a REASSERT in class 0. -/
theorem test_claimHeard_reasserts :
    (after (.claimHeard (heard .claim 3 (tagBytes tagT))) (claiming true)).link.queues[(0 : Fin 4)] = [.reassert tagT] := by decide +kernel

/-- 12.4, t = 16: the claimant converts to a feeder of the station that reasserts. -/
theorem test_reassertHeard_converts :
    ((after (.reassertHeard (heard .reassert 3 (tagBytes tagT))) (claiming true)).feeder? 0).map (fun p => p.2.anchor) = some 3 := by
  decide +kernel
/-- R121: a settled anchor ends SPLIT. -/
theorem test_reassertHeard_split :
    (after (.reassertHeard (heard .reassert 3 (tagBytes tagT))) anchoring).link.queues[(1 : Fin 4)] = [.release tagT .split] := by
  decide +kernel

/-- 12.2, row 16: FEEDING with no tally: freed, T retired, Re released. -/
theorem test_releaseHeard_frees :
    let c := after (.releaseHeard (heard .release 1 (tagBytes tagT ++ [1]))) feeding
    c.slots = [] ∧ c.retired = [tagT] ∧ c.notice.re = 0 := by decide +kernel
/-- 12.6, t = 1020: with a tally outstanding the context goes to RELEASE-WAIT. -/
theorem test_releaseHeard_waits :
    ((after (.releaseHeard (heard .release 1 (tagBytes tagT ++ [1]))) (waiting (tallyOf .awaiting 1))).feeder? 0).map
      (fun p => p.2.state) = some .releaseWait := by decide +kernel

/-- 07 section 7.11: the four codes of one tally. -/
theorem test_tallyReceived_7_11 :
    (after (.tallyReceived (tallyFrom [.block 10 512 1 0, .block 5 512 1 0, .block 12 256 1 0, .close 6400 9 0]))
      anchoring).verdicts[3] =
      some { tag := tagT, seq := 41, dest := 3, verdict := .perEntry [.accept, .duplicate, .accept, .accept] } := by decide +kernel
/-- 12.2, row 9: a CLAIMING context answers HOLD, which is not recorded. -/
theorem test_tallyReceived_hold :
    let c := after (.tallyReceived (tallyFrom [.block 10 512 1 0])) (claiming true)
    c.link.queues[(0 : Fin 4)] = [.verdict { tag := tagT, seq := 41, dest := 3, verdict := .hold }] ∧ c.verdicts[3] = none := by
  decide +kernel

/-- 04 section 4.10: the pool is empty, and one verdict answers two entries REFUSED. -/
def exhausted (k j : Nat) : Chip :=
  let y := tallyOf .awaiting 1
  let f : Feeder := { tallied y with entries := [entryOf k handleA, entryOf j handleB] }
  { waiting y with
    slots := [(0, .live { tallyContext y with cover := [⟨10, 10⟩, ⟨30, 1⟩], role := .feeder f })], extFree := 0 }

/-- 04 section 4.10: 15 then 30 empties the list; 30 then 15 splits it with the record that 30 returned. -/
theorem test_verdictReceived_4_10 :
    let v := Instr.verdictReceived (verdictTo (.perEntry [.refused, .refused]))
    ((after v (exhausted 15 30)).context? 0).map Context.cover = some [] ∧ (after v (exhausted 15 30)).extFree = 2 ∧
      ((after v (exhausted 30 15)).context? 0).map Context.cover = some [⟨10, 5⟩, ⟨16, 4⟩] ∧
      (after v (exhausted 30 15)).extFree = 0 := by decide +kernel

/-- 12.2, row 15: an ACCEPT queues the BLOCK notice, naming the answering station. -/
theorem test_verdictReceived_accept :
    (after (.verdictReceived (verdictTo (.perEntry [.accept, .duplicate]))) (waiting (tallyOf .awaiting 1))).notice.queue =
      [.block tagT 1 (itemOf 10 handleA)] := by decide +kernel

/-- 12.4, t = 36: the entry has waited 20 µs and a tally is formed. -/
theorem test_batchDelayExpiry : (after (.batchDelayExpiry 0) feeding).pair[1] = some 0 := by decide
/-- 12.2, row 11: the provisional blocks are noticed, naming self, and the state is OPEN. -/
theorem test_settleExpiry :
    let c := after (.settleExpiry 0) (claiming true)
    c.notice.queue = [.block tagT 2 (itemOf 4 handleA)] ∧ (c.anchor? 0).map (fun p => p.2.state) = some .opened := by decide
theorem test_anchorIdleExpiry :
    (after (.anchorIdleExpiry 0) anchoring).link.queues[(1 : Fin 4)] = [.release tagT .stalled] := by decide
theorem test_feederIdleExpiry :
    (after (.feederIdleExpiry 0) (holding (context [] (.feeder (Feeder.fresh 1))) station)).slots = [] := by decide

/-- 12.6, t = 1200: send count 2, the tally queued again; at the third send the context is orphaned UNRESPONSIVE. -/
theorem test_verdictTimerExpiry_resend :
    ((after (.verdictTimerExpiry 0) (waiting (tallyOf .awaiting 1))).feeder? 0).bind (fun p => p.2.tally.map Tally.sends) = some 2 := by
  decide
theorem test_verdictTimerExpiry_third :
    (after (.verdictTimerExpiry 0) (waiting (tallyOf .awaiting 3))).notice.queue = [.orphaned tagT .unresponsive 0 2] := by decide
/-- 12.2, row 12: the resend after a hold keeps send count 1. -/
theorem test_holdWaitExpiry :
    ((after (.holdWaitExpiry 0) (waiting (tallyOf .holding 1))).feeder? 0).bind
      (fun p => p.2.tally.map fun y => (y.sends, y.stage)) = some (1, .queued) := by decide

def part0 : List Byte := [0, 0, 0, 2, 0, 0, 2, 0]

/-- Part 1: two rings of 64 entries; a short part leaves the missing bytes 0 (R190). -/
def part1 : List Byte := zeros 11 ++ [64] ++ zeros 27 ++ [64]

def part2 : List Byte := zeros 11 ++ [64]

def staged : Chip :=
  { tuned with cmd := { tuned.cmd with staging := #v[some part0, some part1, some part2, some [2]] } }

theorem test_setupPart :
    (after (.setupPart (command 1 [3, 2])) tuned).cmd.staging[3] = some [2] := by decide +kernel
theorem test_go_building : (after (.go (command 2 [])) staged).fold.table = .building := by decide +kernel
/-- R189: the defaults of part 2 when its fields are 0. -/
theorem test_go_clamps :
    (after (.go (command 2 [])) staged).cmd.setup.map (fun su => (su.extentCap, su.frontStep, su.beaconInterval, su.batchDelay)) =
      some (32, 64, 100, 20) := by decide +kernel

def building : Chip :=
  { fresh with
    fold := { fresh.fold with table := .building, entries := [2] }, cmd := { fresh.cmd with setup := some setupA } }

theorem test_powerTableReady :
    (after .powerTableReady building).cmd.mode = .running ∧ (after .powerTableReady building).small.refill = .producer 0 := by decide

/-- R204: ANSWER bodies of QUERY (NOT-HERE, code 0AH), QUIESCE and RESUME (DONE, 09H), and an unknown kind (BAD-COMMAND, 0EH). -/
theorem test_query_not_here :
    (after (.query (command 3 (tagBytes tagU))) station).link.queues[(3 : Fin 4)] = [.answer [2, 2, 9, 3, 10, 0]] := by decide +kernel
theorem test_quiesce :
    (after (.quiesce (command 5 [])) station).link.queues[(3 : Fin 4)] = [.answer [2, 3, 9, 5, 9, 0]] := by decide +kernel
theorem test_resume :
    (after (.resume (command 6 [])) { station with cmd := { station.cmd with mode := .quiesced } }).cmd.mode = .running := by decide +kernel
theorem test_badCommand :
    (after (.badCommand (command 0x20 [])) station).link.queues[(3 : Fin 4)] = [.answer [2, 2, 9, 0x20, 14, 0]] := by decide +kernel
theorem test_abort :
    (after (.abort (command 4 (tagBytes tagT))) anchoring).link.queues[(1 : Fin 4)] = [.release tagT .aborted] := by decide +kernel
theorem test_counters_clears :
    (after (.counters (command 7 [1])) { station with cmd := { station.cmd with counters := Vector.replicate 16 5 } }).cmd.counters =
      Vector.replicate 16 0 := by decide +kernel
theorem test_restart : (after (.restart (command 8 [])) anchoring).cmd.mode = .restarting := by decide +kernel

/-- R73: the extent record that the intake holds in LANDING returns at RESTART. -/
theorem test_restart_extent :
    let c := withSegment .landing (landed 2 3 0) anchoring
    (after (.restart (command 8 [])) c).extFree = c.extFree + 1 := by decide +kernel

def restarting (c : Chip) : Chip := { c with cmd := { c.cmd with mode := .restarting, restartNumber := 9 } }

/-- R167: the cached handles stand in one RETURN notice; R198: RESTARTED (0DH) is queued. -/
theorem test_restartGather :
    (after .restartGather (restarting station)).notice.queue = [.returned .small [handleA, handleB]] ∧
      (after .restartGather (restarting station)).link.queues[(3 : Fin 4)] = [.answer [2, 5, 9, 8, 13, 0]] := by decide

/-- 08 section 8.11: C = 60, producer word 2, M = 64: A = 6 and R = 6, the last entry read being number 1; the consumer word is then 2. -/
def refilling (r : Refill) : Chip := { station with small := { cache := [], stack := [], cons := 60, refill := r } }
theorem test_producerWordArrives :
    (after (.producerWordArrives .small ⟨0x100, 2⟩) (refilling (.producer 0))).small.refill = .entries 6 0 := by decide
theorem test_ringEntryArrives :
    (after (.ringEntryArrives .small ⟨0x1010, [0, 0, 0, 0, 0, 0, 0x80, 0, 0, 0, 7] ++ zeros 5⟩) (refilling (.entries 6 5))).small =
      { cache := [{ handleA with copy := 2 }], stack := [], cons := 60, refill := .consumer 6 } := by decide
theorem test_consumerWordWritten :
    (after (.consumerWordWritten .small) (refilling (.consumer 6))).small.cons = 2 ∧
      Memory.read 0x107 (memAfter (.consumerWordWritten .small) (refilling (.consumer 6))) = some 2 := by decide

/-- 09 section 9.7: Pn = 40 and Cn = 41 with M = 64: the ring is full and the consumer word is read; 46 leaves it not full. -/
def fullRing (p : Poll) : Chip :=
  { station with notice := { station.notice with queue := [.front tagT 3], pn := 40, cn := 41, poll := p } }
theorem test_noticeWriteBegin_full : (after .noticeWriteBegin (fullRing .idle)).notice.poll = .reading := by decide
/-- R180, R154: with the head's payload on its way a full ring is not read, and the payload of another copy holds nothing back. -/
theorem test_noticeWriteBegin_payload :
    let record := Notice.block tagT 2 (itemOf 4 handleA)
    let under (h : Handle) (cn : Nat) : Chip := { fullRing .idle with
      notice := { (fullRing .idle).notice with queue := [record], cn := cn },
      payloadWrites := [{ handle := h, addr := 0x8000, data := 5 }] }
    (after .noticeWriteBegin (under handleA 41)).notice.poll = .idle ∧
      (after .noticeWriteBegin (under { handleA with copy := 9 } 46)).notice.writing = some { notice := record, queued := true } := by
  decide
/-- R181: the emptied queue ends the rereads, and a record that would then be written on the full ring reads the word. -/
theorem test_restartGather_poll :
    let c := after .restartGather (restarting { fullRing (.waiting (.running 1008)) with small := BufferPool.reset })
    c.notice.poll = .idle ∧
      (after .noticeWriteBegin { c with notice := { c.notice with queue := [.front tagT 3] } }).notice.poll = .reading := by decide
theorem test_consumerWordArrives : (after (.consumerWordArrives ⟨0x114, 46⟩) (fullRing .reading)).notice.poll = .idle := by decide
theorem test_consumerPollExpiry :
    (after .consumerPollExpiry (fullRing (.waiting (.running 1008)))).notice.poll = .reading := by decide

def writing : Chip :=
  { station with
    notice := { station.notice with queue := [.front tagT 3], pn := 40, cn := 46, writing := some { notice := .front tagT 3, queued := true } } }

/-- 09 section 9.7: the record is written, Pn = 41; R206: byte 0 of an open FRONT record is 50H. -/
theorem test_noticeWriteEnd :
    (after .noticeWriteEnd writing).notice.pn = 41 ∧
      Memory.read (0x3000 + 32 * 40) (memAfter .noticeWriteEnd writing) = some 0x50 := by decide
theorem test_payloadWriteDone :
    memAfter (.payloadWriteDone handleA 1) { station with payloadWrites := [{ handle := handleA, addr := 0x8000, data := 5 }] } =
      [(0x8000, 5)] := by decide
theorem test_mediumLeavesValidIdle : (after (.mediumLeavesValidIdle false) station).link.receiver = .taking := by decide

/-! ## Witnesses: the hypotheses of each statement, met together, and each clause at a boundary of its range -/

theorem witness_StepRunsFrontCommand :
    ({ State.reset with pending := [.validIdle, .pinReset] } : State).pending = .validIdle :: [.pinReset] ∧
      State.reset.pending = [] := by decide

theorem witness_CommandsNeverStop :
    State.reset.chip.inReset = true ∧ Instr.validIdle ≠ .pinReset ∧ ∀ straps, Instr.validIdle ≠ .pinResetRelease straps := by
  decide

/-- A payload byte on its way, and a byte written below it. -/
def landing : State :=
  { chip := { station with payloadWrites := [{ handle := handleA, addr := 0x8000, data := 5 }] }, mem := [(0x7FFF, 1)],
    pending := [.payloadWriteDone handleA 1] }

theorem witness_StepKeepsMemoryForm : Memory.wf landing.mem = true ∧ ∃ t, step landing = .next t :=
  ⟨by decide, _, rfl⟩

/-- A full retired list: the oldest tag leaves it, and the tag learned leaves the claim cache. -/
def learned : Chip :=
  { station with
    retired := (List.range 64).map fun n => { session := 0, object := BitVec.ofNat 32 n }, cache := [(tagT, 1), (tagU, 3)] }

theorem witness_StepKeepsHeardForm :
    learned.heardOk ∧ ∃ t, step { on learned with pending := [.releaseHeard (heard .release 1 (tagBytes tagT ++ [1]))] } = .next t :=
  ⟨by decide, _, rfl⟩

/-- Class 3 is full. -/
def fullAnswers (c : Chip) : Chip :=
  { c with link := { c.link with queues := c.link.queues.set 3 (List.replicate 4 (.answer [2, 2, 9, 3, 10, 0])) } }

theorem witness_StepKeepsQueuesAndCounts :
    (fullAnswers station).queuesOk ∧ ∃ t, step { on (fullAnswers station) with pending := [.beaconPoint] } = .next t :=
  ⟨by decide, _, rfl⟩

/-- A record and a consumer word are being written: address 5 lies outside both. -/
theorem witness_PinResetAndReleaseStartStation_outside :
    let c := { writing with small := (refilling (.consumer 6)).small }
    (∀ w, c.notice.writing = some w → 5 ∉ span c.recordAddr (c.recordBytes w.notice).length) ∧
      ∀ cls r, (c.pool cls).refill = .consumer r → 5 ∉ span (c.ring cls).consumer 4 := by
  refine ⟨?_, ?_⟩
  · intro w h
    cases h
    decide
  · intro cls r h
    cases cls
    · decide
    · cases h

theorem witness_PinResetAndReleaseStartStation_release : State.reset.chip.inReset = true := by decide

theorem witness_PortBytesAreTaken_last :
    let c := withHeader (dataHeader.take 30) station
    c.portReady = true ∧ c.intake.state = .awaitHeader ∧ c.intake.headerBytes.length < 31 := by decide

theorem witness_PortBytesAreTaken_first :
    station.portReady = true ∧ station.intake.state = .awaitHeader ∧ station.intake.headerBytes.length < 31 := by decide

theorem witness_PortBytesAreTaken_flag :
    let c := { station with intake := { station.intake with state := .discarding } }
    c.portReady = true ∧ c.intake.state = .discarding := by decide

abbrev judges (c : Chip) : Prop :=
  c.portReady = true ∧ c.intake.state = .awaitHeader ∧ c.intake.headerBytes.length = 31

theorem witness_HeaderIsJudged_fails :
    judges (withHeader dataHeader station) ∧ parseHeader ((withHeader dataHeader station).intake.headerBytes ++ [0xC7]) = none := by
  decide

/-- The filter in open mode lists 99H: a header of that session is not admitted. Its words add to 01C1H, so the check is FE3EH. -/
theorem witness_HeaderIsJudged_not_admitted :
    let c := withHeader ((dataHeader.set 7 0x99).set 30 0xFE) station
    judges c ∧ (parseHeader (c.intake.headerBytes ++ [0x3E])).map
      (fun h => hostSession c.params.filterMode c.params.filterTags h.tag.session) = some none := by decide

theorem witness_HeaderIsJudged_close :
    let c := withHeader closeHeader station
    judges c ∧ (parseHeader (c.intake.headerBytes ++ [0xCB])).map
      (fun h => (h.kind, hostSession c.params.filterMode c.params.filterTags h.tag.session)) = some (.close, some 255) := by decide

/-- An anchor that holds blocks 0 and 1, which block 2 extends; its last free extent is spent. -/
def extendable (st : AnchorState) : Anchor := { anchorPart st with accepted := 2 }
def extendContext (st : AnchorState) : Context := context [⟨0, 2⟩] (.anchor (extendable st))
def extending (st : AnchorState) : Chip := { holding (extendContext st) station with extFree := 0 }

theorem witness_DataSegmentLands :
    let c := withHeader dataHeader (extending .opened)
    c.portReady = true ∧ c.intake.state = .awaitHeader ∧ c.intake.headerBytes.length = 31 ∧
      (parseHeader (c.intake.headerBytes ++ [0xC6])).map (fun h => Chip.segmentOf h 255) = some (segment .data 2 3 0 0) ∧
      hostSession c.params.filterMode c.params.filterTags (segment .data 2 3 0 0).hdr.tag.session = some 255 ∧
      c.canLand (segment .data 2 3 0 0) 0 (extendContext .opened) handleA ∧ c.tableOk := by decide

/-- The last free pending entry, at a FEEDING context. -/
theorem witness_DataSegmentLands_feeding :
    let c := withHeader dataHeader { feeding with pendFree := 1 }
    judges c ∧ (parseHeader (c.intake.headerBytes ++ [0xC6])).map (fun h => Chip.segmentOf h 255) = some (segment .data 2 3 0 0) ∧
      c.canLand (segment .data 2 3 0 0) 0 feedContext handleA ∧ c.tableOk := by decide

/-- A CLAIMING anchor with seven provisional blocks, the last place free. -/
def sevenAnchor : Anchor :=
  { anchorPart .claiming with accepted := 7, provisional := (List.range 7).map fun k => itemOf k handleB }
def sevenContext : Context := context [⟨0, 7⟩] (.anchor sevenAnchor)
def seven : Chip := { holding sevenContext station with extFree := 1 }

theorem witness_DataSegmentLands_granted :
    let g := { segment .data 20 512 0 0 with granted := true }
    let c := withSegment .deciding g seven
    c.inReset = false ∧ c.intake.state = .deciding ∧ c.intake.seg = some g ∧ g.granted = true ∧ g.extentRes = false ∧
      g.pendingRes = false ∧ g.blockRes = false ∧ c.canLand g 0 sevenContext handleA ∧ c.tableOk := by decide

/-- The station with segment `g` in DECIDING, its request granted: it resumes at step 3. -/
def resuming (g : Segment) (c : Chip) : Chip := withSegment .deciding { g with granted := true } c

theorem resuming_toLookup (kind : SegKind) (k n l e : Nat) (c : Chip) (h : c.inReset = false) :
    (resuming (segment kind k n l e) c).toLookup .intakeRoomGranted (segment kind k n l e) :=
  .inr (.inr ⟨_, rfl, h, rfl, rfl, rfl, rfl, rfl, rfl, rfl, rfl⟩)

/-- The header of block 2 of T brings the intake to step 3, and so does the GOOD flag of a CLOSE. -/
theorem witness_NewTagCreatesContext_header :
    (withHeader dataHeader station).toLookup (.segmentHeader 0xC6) (segment .data 2 3 0 0) :=
  .inl ⟨_, _, 255, rfl, by decide, by decide, by decide, (by decide : _ = some (segment .data 2 3 0 0).hdr), by decide, by decide, rfl⟩
theorem witness_NewTagCreatesContext_flag :
    (withSegment .deciding (segment .close 0 0 0 0) station).toLookup (.closeFlag true)
      { segment .close 0 0 0 0 with flagTaken := true } :=
  .inr (.inl ⟨_, rfl, by decide, by decide, rfl, rfl, rfl, rfl, rfl, rfl⟩)

/-- 512 records and reservations: no room. -/
def noRoom (c : Chip) : Chip := { c with notice := { c.notice with re := 512 } }

/-- 192 block reservations are held. -/
theorem witness_DataSegmentLands_held :
    let g := segment .data 20 512 0 0
    let c := resuming g { anchoring with notice := { anchoring.notice with rb := 192 } }
    c.toLookup .intakeRoomGranted g ∧ g.hdr.kind = .data ∧ Table.find g.hdr.tag c.slots = some (0, openContext) ∧
      c.context? 0 = some openContext ∧ c.takesBlock g openContext = true ∧ c.blockRoom = false ∧ c.tableOk :=
  ⟨resuming_toLookup _ _ _ _ _ _ rfl, by decide⟩

/-- Station 1, PRESENT, is the anchor of T in the claim cache. -/
def cachedAt1 : Chip := { station with cache := [(tagT, 1)] }

def newAnchor : Context :=
  { context [] (.anchor (anchorPart .claiming)) with idle := .running (1000 + station.idleTime) }

def newFeeder : Context :=
  { context [] (.feeder (Feeder.fresh 1)) with idle := .running (1000 + station.idleTime) }

theorem witness_NewTagCreatesContext :
    let g := segment .data 20 512 0 0
    let c := resuming g station
    c.toLookup .intakeRoomGranted g ∧ c.newTag g.hdr.tag 0 none ∧ c.hasRoom = true ∧
      (c.created g 0 none).canLand g 0 newAnchor handleA ∧ c.tableOk :=
  ⟨resuming_toLookup _ _ _ _ _ _ rfl, by decide⟩
theorem witness_NewTagCreatesContext_feeder :
    let g := segment .data 20 512 0 0
    let c := resuming g cachedAt1
    c.toLookup .intakeRoomGranted g ∧ c.newTag g.hdr.tag 0 (some 1) ∧ c.hasRoom = true ∧
      (c.created g 0 (some 1)).canLand g 0 newFeeder handleA ∧ c.tableOk :=
  ⟨resuming_toLookup _ _ _ _ _ _ rfl, by decide⟩
theorem witness_NewTagCreatesContext_close :
    let g := segment .close 0 0 0 0
    let c := resuming g station
    c.toLookup .intakeRoomGranted g ∧ g.hdr.kind = .close ∧ c.newTag g.hdr.tag 0 none ∧ c.hasRoom = true ∧
      (c.created g 0 none).context? 0 = some newAnchor ∧ c.tableOk :=
  ⟨resuming_toLookup _ _ _ _ _ _ rfl, by decide⟩
/-- One pending entry is free. -/
theorem witness_NewTagCreatesContext_close_feeder :
    let g := segment .close 0 0 0 0
    let c := resuming g { cachedAt1 with pendFree := 1 }
    c.toLookup .intakeRoomGranted g ∧ g.hdr.kind = .close ∧ c.newTag g.hdr.tag 0 (some 1) ∧ c.hasRoom = true ∧
      (c.created g 0 (some 1)).context? 0 = some newFeeder ∧ 0 < c.pendFree ∧ c.tableOk :=
  ⟨resuming_toLookup _ _ _ _ _ _ rfl, by decide⟩
theorem witness_NewTagCreatesContext_held :
    let g := segment .data 20 512 0 0
    let c := resuming g (noRoom station)
    c.toLookup .intakeRoomGranted g ∧ c.newTag g.hdr.tag 0 none ∧ c.hasRoom = false ∧ c.tableOk :=
  ⟨resuming_toLookup _ _ _ _ _ _ rfl, by decide⟩

/-- A segment of T finds no context and creates one: 192 block reservations are held, no buffer is left, no extent, no pending entry. -/
abbrev creates (c : Chip) (x : Option Station) : Prop :=
  c.newTag tagT 0 x ∧ c.hasRoom = true ∧ c.tableOk

def fullBlocks (c : Chip) : Chip := { c with notice := { c.notice with rb := 192 } }

theorem witness_NewTagCreatesContext_block_held :
    let g := segment .data 20 512 0 0
    let c := resuming g (fullBlocks station)
    let mid := c.created g 0 none
    c.toLookup .intakeRoomGranted g ∧ creates c none ∧ mid.context? 0 = some newAnchor ∧ g.hdr.kind = .data ∧
      mid.takesBlock g newAnchor = true ∧ mid.blockRoom = false :=
  ⟨resuming_toLookup _ _ _ _ _ _ rfl, by decide⟩
theorem witness_NewTagCreatesContext_no_buffer :
    let g := segment .data 20 512 0 0
    let c := resuming g { station with small := BufferPool.reset }
    let mid := c.created g 0 none
    c.toLookup .intakeRoomGranted g ∧ creates c none ∧ mid.context? 0 = some newAnchor ∧ g.hdr.kind = .data ∧
      mid.dataDrop g newAnchor 6 :=
  ⟨resuming_toLookup _ _ _ _ _ _ rfl, by decide, by decide, by decide, by decide, .inr (by decide)⟩
theorem witness_NewTagCreatesContext_extent_short :
    let g := segment .data 20 512 0 0
    let c := resuming g { station with extFree := 0 }
    let mid := c.created g 0 none
    c.toLookup .intakeRoomGranted g ∧ creates c none ∧ mid.context? 0 = some newAnchor ∧ g.hdr.kind = .data ∧
      mid.dataDrop g newAnchor 5 :=
  ⟨resuming_toLookup _ _ _ _ _ _ rfl, by decide, by decide, by decide, by decide, .inl (by decide)⟩
theorem witness_NewTagCreatesContext_pending_full :
    let g := segment .data 20 512 0 0
    let c := resuming g { cachedAt1 with pendFree := 0 }
    let mid := c.created g 0 (some 1)
    c.toLookup .intakeRoomGranted g ∧ creates c (some 1) ∧ mid.context? 0 = some newFeeder ∧ g.hdr.kind = .data ∧
      mid.dataDrop g newFeeder 5 :=
  ⟨resuming_toLookup _ _ _ _ _ _ rfl, by decide, by decide, by decide, .inl (by decide)⟩
theorem witness_NewTagCreatesContext_close_full :
    let g := segment .close 0 0 0 0
    let c := resuming g { cachedAt1 with pendFree := 0 }
    c.toLookup .intakeRoomGranted g ∧ creates c (some 1) ∧ (c.created g 0 (some 1)).context? 0 = some newFeeder ∧
      g.hdr.kind = .close ∧ c.pendFree = 0 :=
  ⟨resuming_toLookup _ _ _ _ _ _ rfl, by decide⟩

/-- Each reason of a drop for a tag that no context holds. -/
abbrev dropped (c : Chip) (n : Fin 16) : Prop :=
  let g := segment .data 20 512 0 0
  (resuming g c).toLookup .intakeRoomGranted g ∧ (resuming g c).tableOk ∧ (resuming g c).newTagDrop g.hdr.tag n

theorem witness_NewTagCreatesContext_quiesced : dropped { station with cmd := { station.cmd with mode := .quiesced } } 2 :=
  ⟨resuming_toLookup _ _ _ _ _ _ rfl, by decide, by decide, .inl ⟨rfl, by decide⟩⟩
theorem witness_NewTagCreatesContext_late : dropped { station with retired := [tagT] } 3 :=
  ⟨resuming_toLookup _ _ _ _ _ _ rfl, by decide, by decide, .inr ⟨rfl, .inl ⟨rfl, by decide⟩⟩⟩
theorem witness_NewTagCreatesContext_absent : dropped { station with cache := [(tagT, 5)] } 2 :=
  ⟨resuming_toLookup _ _ _ _ _ _ rfl, by decide, by decide, .inr ⟨rfl, .inr ⟨rfl, by decide, .inl ⟨5, by decide, by decide⟩⟩⟩⟩
theorem witness_NewTagCreatesContext_unsynced : dropped { station with link := { station.link with state := .seeking } } 2 :=
  ⟨resuming_toLookup _ _ _ _ _ _ rfl, by decide, by decide, .inr ⟨rfl, .inr ⟨rfl, by decide, .inr (.inl ⟨by decide, by decide⟩)⟩⟩⟩
theorem witness_NewTagCreatesContext_full :
    dropped { station with slots := (List.range 256).map fun i => (i, .owing { tagU with object := BitVec.ofNat 32 (i + 256) } .split) } 2 :=
  ⟨resuming_toLookup _ _ _ _ _ _ rfl, by decide +kernel, by decide +kernel,
    .inr ⟨rfl, .inr ⟨rfl, by decide, .inr (.inr (by decide +kernel))⟩⟩⟩

theorem witness_PortBytesAreTaken_close :
    let g := segment .close 0 0 0 0
    let c := withSegment .deciding g station
    c.portReady = true ∧ c.awaitsCloseFlag = true ∧ c.intake.seg = some g ∧ g.extentRes = false ∧ g.pendingRes = false ∧
      g.blockRes = false ∧ g.handle = none := by decide

theorem witness_CloseCompletesObject :
    let g := segment .close 0 0 5120 5
    let c := withSegment .deciding g anchoring
    c.portReady = true ∧ c.awaitsCloseFlag = true ∧ c.intake.seg = some g ∧
      Table.find g.hdr.tag c.slots = some (0, openContext) ∧ c.anchor? 0 = some (openContext, openAnchor) ∧ c.tableOk ∧
      openAnchor.state = .opened ∧ openAnchor.close = none ∧
      closeFault openContext.sizeCode openContext.cover openAnchor g.hdr.sizeCode
        (closeRecord g.hdr.objLength g.hdr.fold g.hdr.sizeCode) = none ∧
      Coverage.whole openContext.cover (closeRecord g.hdr.objLength g.hdr.fold g.hdr.sizeCode).blocks = true := by decide

/-- A CLOSE that finds the context `ctx` of T at index 0. -/
abbrev closes (c : Chip) (g : Segment) (ctx : Context) : Prop :=
  g.hdr.kind = .close ∧ Table.find g.hdr.tag c.slots = some (0, ctx) ∧ c.context? 0 = some ctx ∧ c.tableOk

theorem witness_CloseCompletesObject_claiming :
    let g := segment .close 0 0 5120 5
    let c := resuming g (claiming true)
    c.toLookup .intakeRoomGranted g ∧ closes c g (claimContext true) ∧ (claimAnchor true).close = none ∧
      closeFault 0 (claimContext true).cover (claimAnchor true) 0 (closeRecord 5120 5 0) = none ∧ (claimAnchor true).state = .claiming :=
  ⟨resuming_toLookup _ _ _ _ _ _ rfl, by decide⟩
/-- One block is lacking. -/
theorem witness_CloseCompletesObject_opened :
    let g := segment .close 0 0 5632 5
    let c := resuming g anchoring
    c.toLookup .intakeRoomGranted g ∧ closes c g openContext ∧ openAnchor.close = none ∧
      closeFault 0 openContext.cover openAnchor 0 (closeRecord 5632 5 0) = none ∧ openAnchor.state = .opened ∧
      Coverage.whole openContext.cover (closeRecord 5632 5 0).blocks = false :=
  ⟨resuming_toLookup _ _ _ _ _ _ rfl, by decide⟩
/-- Block 9 is held, and the close gives nine blocks. -/
theorem witness_CloseCompletesObject_fault :
    let g := segment .close 0 0 4608 5
    let c := resuming g anchoring
    c.toLookup .intakeRoomGranted g ∧ closes c g openContext ∧ openAnchor.close = none ∧ openAnchor.state ≠ .claiming ∧
      closeFault 0 openContext.cover openAnchor 0 (closeRecord 4608 5 0) = some .overrun :=
  ⟨resuming_toLookup _ _ _ _ _ _ rfl, by decide⟩

/-- A CLOSING anchor for T with a close of 11 blocks recorded, block 10 lacking. -/
def closingHeld : Anchor := { openAnchor with state := .closing, close := some (closeRecord 5632 5 0) }
def closingHeldContext : Context := context [⟨0, 10⟩] (.anchor closingHeld)
def closingHeldAt : Chip := holding closingHeldContext station

theorem witness_CloseCompletesObject_equal :
    let g := segment .close 0 0 5632 5
    let c := resuming g closingHeldAt
    c.toLookup .intakeRoomGranted g ∧ closes c g closingHeldContext ∧ closingHeld.close = some (closeRecord 5632 5 0) ∧
      (closeRecord 5632 5 0).length = g.hdr.objLength ∧ (closeRecord 5632 5 0).fold = g.hdr.fold ∧
      g.hdr.sizeCode = closingHeldContext.sizeCode :=
  ⟨resuming_toLookup _ _ _ _ _ _ rfl, by decide⟩
theorem witness_CloseCompletesObject_conflict :
    let g := segment .close 0 0 5632 6
    let c := resuming g closingHeldAt
    c.toLookup .intakeRoomGranted g ∧ closes c g closingHeldContext ∧ closingHeld.close = some (closeRecord 5632 5 0) ∧
      (closeRecord 5632 5 0).fold ≠ g.hdr.fold ∧ closingHeld.state ≠ .claiming :=
  ⟨resuming_toLookup _ _ _ _ _ _ rfl, by decide⟩
theorem witness_CloseCompletesObject_feeding :
    let g := segment .close 0 0 5632 5
    let c := resuming g { feeding with pendFree := 1 }
    c.toLookup .intakeRoomGranted g ∧ closes c g feedContext ∧ feedPart.state = .feeding ∧ 0 < c.pendFree :=
  ⟨resuming_toLookup _ _ _ _ _ _ rfl, by decide⟩

/-- The feeder in RELEASE-WAIT with tally 41 outstanding. -/
def releasePart : Feeder := { tallied (tallyOf .awaiting 1) with state := .releaseWait }
def releaseContext : Context := { context [⟨10, 2⟩] (.feeder releasePart) with idle := .stopped }
def releasing : Chip := { waiting (tallyOf .awaiting 1) with slots := [(0, .live releaseContext)] }

theorem witness_CloseCompletesObject_late :
    let g := segment .close 0 0 5632 5
    let c := resuming g releasing
    c.toLookup .intakeRoomGranted g ∧ closes c g releaseContext ∧ releasePart.state = .releaseWait :=
  ⟨resuming_toLookup _ _ _ _ _ _ rfl, by decide⟩
theorem witness_CloseCompletesObject_pending_full :
    let g := segment .close 0 0 5632 5
    let c := resuming g { feeding with pendFree := 0 }
    c.toLookup .intakeRoomGranted g ∧ closes c g feedContext ∧ feedPart.state = .feeding ∧ c.pendFree = 0 :=
  ⟨resuming_toLookup _ _ _ _ _ _ rfl, by decide⟩

def takingByte (taken : Nat) (u : FoldUnit) : Chip :=
  withSegment .landing { landed 2 3 0 with taken := taken, sum := none } { station with fold := u }

abbrev takesPayload (c : Chip) (taken : Nat) : Prop :=
  let g := { landed 2 3 0 with taken := taken, sum := none }
  c.portReady = true ∧ c.intake.state = .landing ∧ c.intake.seg = some g ∧ g.handle = some handleA ∧ g.taken < g.hdr.length

/-- The last byte, the low byte of no symbol. -/
theorem witness_PayloadByteIsLandedAndFolded_last :
    let c := takingByte 2 { station.fold with folded := 2, power := some 4 }
    takesPayload c 2 ∧ c.fold.walk = none ∧ c.fold.folded + 1 = 3 ∧ c.fold.power = some 4 := by decide

theorem witness_PayloadByteIsLandedAndFolded_walk :
    let c := takingByte 0 { station.fold with walk := some 512 }
    takesPayload c 0 ∧ c.fold.walk.isSome = true := by decide

/-- The second byte of three, as the low byte of a symbol. -/
theorem witness_PayloadByteIsLandedAndFolded_low :
    let c := takingByte 1 { station.fold with folded := 1, odd := some 7, power := some 4 }
    takesPayload c 1 ∧ c.fold.walk = none ∧ c.fold.folded + 1 < 3 ∧ c.fold.power = some 4 ∧ c.fold.odd = some 7 := by decide

theorem witness_PayloadByteIsLandedAndFolded_high :
    let c := takingByte 0 { station.fold with power := some 4 }
    takesPayload c 0 ∧ c.fold.walk = none ∧ c.fold.folded + 1 < 3 ∧ c.fold.power = some 4 ∧ c.fold.odd = none := by decide

abbrev walks (c : Chip) (w e : Nat) : Prop :=
  let g := { landed 2 3 0 with taken := 0, sum := none }
  c.inReset = false ∧ c.intake.state = .landing ∧ c.intake.seg = some g ∧ c.fold.walk = some e ∧ c.fold.waiting = [] ∧
    c.fold.folded < g.hdr.length ∧ c.intake.headerBytes = [] ∧ 2 ≤ w ∧ w < foldP - 1 ∧ c.fold.entries = powerTable w ∧ e < 2 ^ 31

theorem witness_PayloadByteIsLandedAndFolded_power : walks (takingByte 0 { station.fold with walk := some 512 }) 2 512 := by decide

/-- The largest weight and the largest exponent. -/
theorem witness_PayloadByteIsLandedAndFolded_largest :
    walks (takingByte 0 { station.fold with walk := some 2147483647, entries := powerTable 2147483645 }) 2147483645 2147483647 := by
  decide

/-- The fold unit holds two bytes of three that wait for the walk, or that are folded. -/
theorem witness_PayloadByteIsLandedAndFolded_held :
    let c := takingByte 2 { station.fold with walk := some 512, waiting := [1, 2] }
    takesPayload c 2 ∧ c.fold.entries = powerTable c.params.weight ∧
      c.foldHolds { landed 2 3 0 with taken := 2, sum := none } [1, 2] ∧ c.fold.walk ≠ none :=
  ⟨by decide, by decide, .inl (by decide), by decide⟩
theorem witness_PayloadByteIsLandedAndFolded_sum :
    let u := { station.fold with power := some (firstPower (powerTable 2) 512) }
    let c := takingByte 2 ([1, 2].foldl (foldByte 2 3) u)
    takesPayload c 2 ∧ c.fold.entries = powerTable c.params.weight ∧
      c.foldHolds { landed 2 3 0 with taken := 2, sum := none } [1, 2] ∧ c.fold.walk = none :=
  ⟨by decide, by decide, .inr (by decide), by decide⟩
/-- The walk ends with two bytes of three waiting, and with all three. -/
theorem witness_PayloadByteIsLandedAndFolded_walked (bs : List Byte) (h : bs = [1, 2] ∨ bs = [1, 2, 3]) :
    let c := takingByte bs.length { station.fold with walk := some 512, waiting := bs }
    let g := { landed 2 3 0 with taken := bs.length, sum := none }
    c.inReset = false ∧ c.intake.state = .landing ∧ c.intake.seg = some g ∧ bs.length ≤ g.hdr.length ∧ 0 < g.hdr.length ∧
      c.fold.entries = powerTable c.params.weight ∧ c.fold.walk ≠ none ∧ c.foldHolds g bs := by
  rcases h with rfl | rfl <;> exact ⟨by decide, by decide, by decide, by decide, by decide, by decide, by decide, .inl (by decide)⟩

theorem witness_WireDropRecyclesHandle :
    let c := withSegment .landing (landed 2 3 0) anchoring
    c.portReady = true ∧ c.intake.state = .landing ∧ c.intake.seg = some (landed 2 3 0) ∧
      (landed 2 3 0).handle = some handleA ∧ c.fold.walk = none ∧ (false = false ∨ (landed 2 3 0).taken ≠ 3) ∧ c.tableOk := by decide

/-- A GOOD flag one byte short. -/
theorem witness_WireDropRecyclesHandle_short :
    let g := { landed 2 3 0 with taken := 2, sum := none }
    let c := withSegment .landing g anchoring
    c.portReady = true ∧ c.intake.state = .landing ∧ c.intake.seg = some g ∧ g.handle = some handleA ∧ c.fold.walk = none ∧
      (true = false ∨ g.taken ≠ g.hdr.length) ∧ c.tableOk := by decide

/-- A landed segment whose GOOD flag comes with its whole payload. -/
abbrev lands (c : Chip) (g : Segment) : Prop :=
  c.portReady = true ∧ c.intake.state = .landing ∧ c.intake.seg = some g ∧ g.handle = some handleA ∧ c.fold.walk = none ∧
    g.taken = g.hdr.length ∧ c.tableOk

theorem witness_WireDropRecyclesHandle_gone :
    let c := withSegment .landing (landed 2 3 0) station
    lands c (landed 2 3 0) ∧ Table.find (landed 2 3 0).hdr.tag c.slots = none := by decide
theorem witness_WireDropRecyclesHandle_releaseWait :
    let c := withSegment .landing (landed 2 3 0) releasing
    lands c (landed 2 3 0) ∧ Table.find (landed 2 3 0).hdr.tag c.slots = some (0, releaseContext) ∧
      c.context? 0 = some releaseContext ∧ Chip.releaseWaits releaseContext = true := by decide
theorem witness_WireDropRecyclesHandle_duplicate :
    let c := withSegment .landing (landed 2 3 0) anchoring
    lands c (landed 2 3 0) ∧ Table.find (landed 2 3 0).hdr.tag c.slots = some (0, openContext) ∧
      c.context? 0 = some openContext ∧ Chip.releaseWaits openContext = false ∧
      Coverage.holds openContext.cover (landed 2 3 0).hdr.block = true := by decide

/-- A block that the anchor of T takes: one block reservation is held, the block's own. -/
abbrev accepts (c : Chip) (g : Segment) (ctx : Context) (a : Anchor) : Prop :=
  lands c g ∧ Table.find g.hdr.tag c.slots = some (0, ctx) ∧ c.anchor? 0 = some (ctx, a) ∧ c.tableOk ∧
    Coverage.holds ctx.cover g.hdr.block = false ∧
    shapeFault ctx.sizeCode ctx.cover a g.hdr.sizeCode g.hdr.block g.hdr.length = none ∧
    noExtent ctx.cover g.hdr.block (c.extFree + (if g.extentRes then 1 else 0)) c.params.extentCap = false ∧
    (a.state = .claiming → a.provisional.length < Config.provisionalBlocks) ∧ 0 < c.notice.rb

def reserved (c : Chip) : Chip := { c with notice := { c.notice with rb := 1 } }

theorem witness_LandedBlockIsAccepted_opened :
    let g := { landed 2 3 9 with extentRes := false }
    accepts (withSegment .landing g (reserved (extending .opened))) g (extendContext .opened) (extendable .opened) ∧
      (extendable .opened).state ≠ .claiming := by decide

/-- The eighth provisional block, a new extent from the segment's own reservation. -/
theorem witness_LandedBlockIsAccepted_claiming :
    let g := landed 20 512 9
    accepts (withSegment .landing g (reserved { seven with extFree := 0 })) g sevenContext sevenAnchor ∧
      sevenAnchor.state = .claiming := by decide

/-- The block that a CLOSING anchor lacks. -/
theorem witness_LandedBlockIsAccepted_closing :
    let g := { landed 10 512 9 with extentRes := false }
    accepts (withSegment .landing g (reserved closingHeldAt)) g closingHeldContext closingHeld ∧
      closingHeld.close = some (closeRecord 5632 5 0) ∧
      (closingHeld.state = .closing && Coverage.whole (Coverage.insert 10 closingHeldContext.cover) (closeRecord 5632 5 0).blocks) = true := by
  decide

/-- The pending entry that the segment holds is the last one, and the list has a place or none. -/
theorem witness_LandedBlockIsAccepted_feeding (extFree : Nat) (h : extFree = 0 ∨ extFree = 1) :
    let g := { landed 20 512 9 with extentRes := false, pendingRes := true }
    let c := withSegment .landing g { feeding with pendFree := 0, extFree := extFree }
    lands c g ∧ Table.find g.hdr.tag c.slots = some (0, feedContext) ∧ c.feeder? 0 = some (feedContext, feedPart) ∧
      feedPart.state = .feeding ∧ Coverage.holds feedContext.cover g.hdr.block = false ∧
      (g.pendingRes = true ∨ 0 < c.pendFree) := by
  rcases h with rfl | rfl <;> decide

theorem witness_FoldArithmeticIsModular :
    2 ^ 64 - 1 < 2 ^ 64 ∧ (2 ≤ 2147483645 ∧ 2147483645 < foldP - 1) ∧ (2 ≤ 2 ∧ 2 < foldP - 1) ∧ 30 < 31 := by decide

/-- The last block of the largest size, an odd payload. -/
theorem witness_BlockSumIsWeightedSum :
    2 ≤ 2147483645 ∧ 2147483645 < foldP - 1 ∧ 4294967295 < 2 ^ 32 ∧ 7 ≤ 7 ∧ ([1, 2, 3] : List Byte) ≠ [] ∧
      ([1, 2, 3] : List Byte).length ≤ blockSize 7 := by decide

def apart : List Extent := [⟨1, 2⟩, ⟨4, 1⟩]

theorem witness_CoverageChangesAreExact :
    Coverage.ordered apart = true ∧ Coverage.holds apart 6 = false ∧ Coverage.place apart 6 = .fresh := by decide
theorem witness_CoverageChangesAreExact_extends :
    Coverage.ordered apart = true ∧ Coverage.holds apart 0 = false ∧ Coverage.place apart 0 = .extendsStart ∧ Coverage.holds apart 5 = false ∧
      Coverage.place apart 5 = .extendsEnd := by decide
theorem witness_CoverageChangesAreExact_bridge :
    Coverage.ordered apart = true ∧ Coverage.holds apart 3 = false ∧ Coverage.place apart 3 = .bridge := by decide

theorem witness_CoverageChangesAreExact_removal :
    Coverage.ordered [⟨0, 2⟩, ⟨4, 1⟩] = true ∧ 1 < Coverage.front [⟨0, 2⟩, ⟨4, 1⟩] ∧ Coverage.holds [⟨0, 2⟩, ⟨4, 1⟩] 4 = true := by
  decide

theorem witness_SentFramesAreValid_tally :
    (2 : Station) ≠ 3 ∧ 1 ≤ (tallyBody (List.replicate 8 (.block 0 1 0 0))).entries.length ∧
      (tallyBody (List.replicate 8 (.block 0 1 0 0))).entries.length ≤ 8 := by decide
theorem witness_SentFramesAreValid_verdict : (Verdict.perEntry (List.replicate 8 .ended)).inRange = true := by decide
theorem witness_SentFramesAreValid_answer :
    (answerBody 2 .running 9 7
      { code := .reply, naming := 0, data := countersData 2 station.cmd.counters station.link.presence }).length = 52 := by decide

theorem witness_TallyAndVerdictRoundTrip_tally :
    let t := { tallyBody (List.replicate 7 (.block 4294967295 65536 4294967295 16777215) ++ [.close 281474976710655 0 7]) with
      sizeCode := 7 }
    t.sizeCode ≤ 7 ∧ 1 ≤ t.entries.length ∧ t.entries.length ≤ 8 ∧ ∀ e ∈ t.entries, e.inRange = true := by decide
theorem witness_TallyAndVerdictRoundTrip_verdict :
    (Verdict.perEntry [.ended]).inRange = true ∧ (Verdict.moved 1).inRange = true ∧ Verdict.hold.inRange = true := by decide

theorem witness_ValidIdleBeginsLowestClass :
    let c := claiming false
    c.inReset = false ∧ c.link.state = .synced ∧ c.cmd.mode ≠ .faulted ∧ c.link.wire = none ∧
      c.link.queues[(1 : Fin 4)] = .claim tagT :: [] ∧ ∀ p : Fin 4, p < 1 → c.link.queues[p] = [] := by decide
theorem witness_ValidIdleBeginsLowestClass_seeking :
    fresh.inReset = false ∧ fresh.link.state = .seeking ∧ fresh.self ≠ 0 := by decide

theorem witness_ReceiverTakesFrame_settling :
    settling.inReset = false ∧ settling.link.wire = none ∧ settling.link.receiver = .listening ∧ settling.link.state ≠ .seeking := by
  decide
theorem witness_ReceiverTakesFrame_lost :
    let w := claimWire
    onWireClaim.inReset = false ∧ onWireClaim.link.wire = some w ∧ w.withdraw = false := by decide

theorem witness_SentFrameLeavesQueue_claim :
    let w := claimWire
    onWireClaim.inReset = false ∧ onWireClaim.link.wire = some w ∧ w.queued = true ∧ Table.firstOwed onWireClaim.slots = none ∧
      w.frame = .claim tagT ∧ w.withdraw = false ∧ Table.find tagT onWireClaim.slots = some (0, claimContext false) ∧
      onWireClaim.anchor? 0 = some (claimContext false, claimAnchor false) ∧ (claimAnchor false).state = .claiming ∧
      (claimAnchor false).claimSent = false ∧ (claimAnchor false).claimOwed = false := by decide
theorem witness_SentFrameLeavesQueue_tally :
    let y := tallyOf .queued 1
    let b := { tallyBody [.block 10 512 1 7, .block 11 512 1 8] with dest := 1 }
    let w : Wire := { cls := 2, frame := .tally b, queued := true, withdraw := false }
    let c := { waiting y with link := { station.link with wire := some w } }
    c.inReset = false ∧ c.link.wire = some w ∧ w.queued = true ∧ Table.firstOwed c.slots = none ∧ w.frame = .tally b ∧
      Table.find b.tag c.slots = some (0, tallyContext y) ∧ c.feeder? 0 = some (tallyContext y, tallied y) ∧
      (tallied y).tally = some y ∧ y.dest = b.dest ∧ y.seq = b.seq ∧ y.stage = .queued := by decide

/-- Class 1 holds 32 frames, its head on the wire; slot `j` is owed a frame. -/
def owes (j : Nat) (x : Slot) : Chip :=
  let l := station.link
  { station with
    slots := [(j, x)],
    link := { l with
      queues := l.queues.set 1 (List.replicate 32 (.release tagU .split)),
      wire := some { cls := 1, frame := .release tagU .split, queued := true, withdraw := false } } }
abbrev frees (j : Nat) (x : Slot) : Prop :=
  let c := owes j x
  let w : Wire := { cls := 1, frame := .release tagU .split, queued := true, withdraw := false }
  c.inReset = false ∧ c.link.wire = some w ∧ w.queued = true ∧ w.cls = 1 ∧ c.tableOk ∧
    c.link.queues[(1 : Fin 4)].length ≤ 32 ∧ c.link.queues[(1 : Fin 4)] ≠ [] ∧ Table.firstOwed c.slots = some (j, x) ∧
    (∀ tag, w.frame ≠ .claim tag) ∧ ∀ b, w.frame ≠ .tally b
theorem witness_SentFrameLeavesQueue_release : frees 0 (.owing tagT .verified) ∧ frees 255 (.owing tagT .verified) := by
  constructor <;> exact ⟨rfl, rfl, rfl, rfl, by decide, by decide, by decide, by decide, nofun, nofun⟩
theorem witness_SentFrameLeavesQueue_claim_owed :
    frees 0 (.live (context [⟨4, 1⟩] (.anchor { claimAnchor false with claimOwed := true }))) :=
  ⟨rfl, rfl, rfl, rfl, by decide, by decide, by decide, by decide, nofun, nofun⟩
/-- The CLAIM of T is sent while another context's CLAIM is owed. -/
theorem witness_SentFrameLeavesQueue_both :
    let other : Slot := .live { context [⟨4, 1⟩] (.anchor { claimAnchor false with claimOwed := true }) with tag := tagU }
    let c := { onWireClaim with slots := onWireClaim.slots ++ [(7, other)] }
    c.link.wire = some claimWire ∧ claimWire.queued = true ∧ claimWire.cls = 1 ∧ claimWire.withdraw = false ∧ c.tableOk ∧
      c.link.queues[(1 : Fin 4)] = [.claim tagT] ∧ Table.firstOwed c.slots = some (7, other) ∧
      Table.find tagT c.slots = some (0, claimContext false) ∧ (claimAnchor false).state = .claiming ∧
      (claimAnchor false).claimSent = false ∧ (claimAnchor false).claimOwed = false := by decide

theorem witness_CollisionStrikesThenFaults :
    onWireClaim.inReset = false ∧ onWireClaim.link.wire = some claimWire ∧ claimWire.withdraw = false ∧
      onWireClaim.link.strike = false := by decide
theorem witness_CollisionStrikesThenFaults_second :
    let c := { onWireClaim with link := { onWireClaim.link with strike := true } }
    c.inReset = false ∧ c.link.wire = some claimWire ∧ c.link.strike = true ∧ c.tableOk ∧ c.cmd.mode ≠ .faulted ∧
      c.cmd.mode ≠ .restarting := by decide
theorem witness_CollisionStrikesThenFaults_restarting :
    let c := restarting { onWireClaim with link := { onWireClaim.link with strike := true } }
    c.inReset = false ∧ c.link.wire = some claimWire ∧ c.link.strike = true ∧ c.tableOk ∧ c.cmd.mode = .restarting := by decide

theorem witness_ReceiverTakesFrame_fault : station.hearing = true ∧ settling.hearing = true := by decide
theorem witness_ReceiverTakesFrame_bad :
    let f := { heard .beacon 1 [1, 7] with crc := 0 }
    station.hearing = true ∧ framed f = true ∧ frameFault station.self f = true := by decide +kernel

theorem witness_SyncIsEnteredAndLost :
    settling.inReset = false ∧ settling.link.state = .settling ∧ settling.link.settle = .running 1030 ∧
      settling.link.presence[1].present = true ∧ settling.tableOk := by decide

theorem witness_SyncIsEnteredAndLost_hold :
    station.inReset = false ∧ station.link.state = .synced ∧ station.link.hold = .running 1500 ∧
      (station.notice.latches.map Latch.event).Nodup := by decide

/-- SYNC-LOST and PEER-PRESENT are latched. -/
theorem witness_SyncIsEnteredAndLost_latched :
    let c := { noRoom station with
      notice := { (noRoom station).notice with
        latches := [{ event := .peerPresent, concerned := 1, set := 2, count := 1 },
          { event := .syncLost, concerned := 2, set := 4, count := 65535 }] } }
    c.inReset = false ∧ c.link.state = .synced ∧ c.link.hold = .running 1500 ∧ (c.notice.latches.map Latch.event).Nodup ∧
      (c.notice.latches.any fun l => l.event = .syncLost) = true := by decide

theorem witness_BeaconCountsMissed_point :
    station.inReset = false ∧ station.link.state = .synced ∧ station.link.nextPoint = .running 1040 := by decide
theorem witness_BeaconCountsMissed_full :
    let c := fullAnswers station
    c.inReset = false ∧ c.link.state = .synced ∧ c.link.nextPoint = .running 1040 ∧ c.link.queues[(3 : Fin 4)].length = 4 := by
  decide

theorem witness_BeaconCountsMissed :
    station.validHere (heard .beacon 1 [1, 1]) .beacon ∧ station.link.state = .synced := by decide +kernel
theorem witness_BeaconCountsMissed_answer :
    station.validHere (heard .answer 5 [5, 2, 1, 5, 9, 0]) .answer ∧ station.link.state = .synced := by decide +kernel

theorem witness_AbsenceOrphansFeeders :
    feeding.inReset = false ∧ feeding.link.state = .synced ∧ feeding.link.presence[1].countdown = .running 1400 ∧ feeding.tableOk := by
  decide
theorem witness_AbsenceOrphansFeeders_flag :
    let a := { openAnchor with feeders := 2, feederLost := true }
    (holding (context [⟨0, 10⟩] (.anchor a)) station).anchor? 0 = some (context [⟨0, 10⟩] (.anchor a), a) ∧
      hasStation a.feeders 1 = true := by decide

abbrev learns (c : Chip) (k : FrameKind) (t : Tag) : Prop :=
  let f := heard k 1 (tagBytes t)
  c.validHere f k ∧ f.src ≠ 0 ∧ Table.find (tagAt f.body 0) c.slots = none

theorem witness_ClaimIsLearned :
    learns anchoring .claim tagU ∧ anchoring.isRetired tagU = false ∧ anchoring.cached tagU = none ∧
      anchoring.cache.length < Config.cacheEntries := by decide +kernel
theorem witness_ClaimIsLearned_reassert : learns anchoring .reassert tagU := by decide +kernel
theorem witness_ClaimIsLearned_retired :
    learns { station with retired := [tagU] } .claim tagU ∧ ({ station with retired := [tagU] } : Chip).isRetired tagU = true := by
  decide +kernel
theorem witness_ClaimIsLearned_full :
    let c := { station with cache := (List.range 512).map fun n => ({ session := 0, object := BitVec.ofNat 32 n }, 3) }
    learns c .claim tagT ∧ c.isRetired tagT = false ∧ c.cached tagT = none ∧ Config.cacheEntries ≤ c.cache.length := by
  decide +kernel

/-- One pending entry more than the provisional blocks is free. -/
theorem witness_RivalClaimConverts :
    let c := { claiming false with pendFree := 2 }
    let f := heard .claim 3 (tagBytes tagT)
    c.validHere f .claim ∧ f.src ≠ 0 ∧ Table.find (tagAt f.body 0) c.slots = some (0, claimContext false) ∧
      c.anchor? 0 = some (claimContext false, claimAnchor false) ∧ c.tableOk ∧ (claimAnchor false).state = .claiming ∧
      (claimAnchor false).claimSent = false ∧ c.cmd.mode ≠ .faulted ∧ (claimAnchor false).provisional.length < c.pendFree ∧
      Table.firstOwed c.slots = none := by decide +kernel
/-- A REASSERT converts a claimant whose CLAIM is sent, and one whose CLAIM waits. -/
theorem witness_RivalClaimConverts_reassert (sent : Bool) :
    let c := { claiming sent with pendFree := 2 }
    let f := heard .reassert 3 (tagBytes tagT)
    c.validHere f .reassert ∧ f.src ≠ 0 ∧ Table.find (tagAt f.body 0) c.slots = some (0, claimContext sent) ∧
      c.anchor? 0 = some (claimContext sent, claimAnchor sent) ∧ c.tableOk ∧ (claimAnchor sent).state = .claiming ∧
      (claimAnchor sent).claimSent = sent ∧ c.cmd.mode ≠ .faulted ∧ (claimAnchor sent).provisional.length < c.pendFree := by
  cases sent <;> decide +kernel

theorem witness_RivalClaimConverts_faulted :
    let c0 := claiming false
    let c := { c0 with cmd := { c0.cmd with mode := .faulted } }
    let f := heard .claim 3 (tagBytes tagT)
    c.validHere f .claim ∧ f.src ≠ 0 ∧ Table.find (tagAt f.body 0) c.slots = some (0, claimContext false) ∧
      c.anchor? 0 = some (claimContext false, claimAnchor false) ∧ c.tableOk ∧ (claimAnchor false).state = .claiming ∧
      (claimAnchor false).claimSent = false ∧ c.cmd.mode = .faulted := by decide +kernel
/-- A frame of station 3 for T finds the feeder `fd` of T at index 0. -/
abbrev hearsAtFeeder (k : FrameKind) (c : Chip) (ctx : Context) (fd : Feeder) : Prop :=
  let f := heard k 3 (tagBytes tagT)
  c.validHere f k ∧ f.src ≠ 0 ∧ Table.find (tagAt f.body 0) c.slots = some (0, ctx) ∧ c.feeder? 0 = some (ctx, fd) ∧ c.tableOk

theorem witness_RivalClaimConverts_feeding :
    hearsAtFeeder .claim feeding feedContext feedPart ∧ hearsAtFeeder .reassert feeding feedContext feedPart ∧
      feedPart.state = .feeding ∧ feeding.isRetired tagT = false := by decide +kernel
theorem witness_RivalClaimConverts_releaseWait :
    hearsAtFeeder .claim releasing releaseContext releasePart ∧ hearsAtFeeder .reassert releasing releaseContext releasePart ∧
      releasePart.state = .releaseWait := by decide +kernel

theorem witness_ClaimIsLearned_settled :
    let c := claiming true
    let f := heard .claim 3 (tagBytes tagT)
    c.validHere f .claim ∧ f.src ≠ 0 ∧ Table.find (tagAt f.body 0) c.slots = some (0, claimContext true) ∧
      c.anchor? 0 = some (claimContext true, claimAnchor true) ∧
      ((claimAnchor true).state ≠ .claiming ∨ (claimAnchor true).claimSent = true) := by decide +kernel

theorem witness_AnchorEndsSplitOrStalled :
    let f := heard .reassert 3 (tagBytes tagT)
    anchoring.validHere f .reassert ∧ f.src ≠ 0 ∧ Table.find (tagAt f.body 0) anchoring.slots = some (0, openContext) ∧
      anchoring.anchor? 0 = some (openContext, openAnchor) ∧ anchoring.tableOk ∧ openAnchor.state ≠ .claiming := by decide +kernel
theorem witness_AnchorEndsSplitOrStalled_idle :
    anchoring.inReset = false ∧ anchoring.anchor? 0 = some (openContext, openAnchor) ∧ anchoring.tableOk ∧
      openAnchor.state ≠ .claiming ∧ openContext.idle = .running 900000 := by decide
/-- A RELEASE of station 3 for T. -/
def releaseT : HeardFrame := heard .release 3 (tagBytes tagT ++ [1])
theorem witness_AnchorEndsSplitOrStalled_release :
    anchoring.validHere releaseT .release ∧ releaseT.src ≠ 0 ∧
      Table.find (tagAt releaseT.body 0) anchoring.slots = some (0, openContext) ∧
      anchoring.anchor? 0 = some (openContext, openAnchor) ∧ anchoring.tableOk ∧ openAnchor.state ≠ .claiming := by decide +kernel
/-- No frame is owed, and the CLAIM of T is queued, or is on the wire. -/
theorem witness_AnchorEndsSplitOrStalled_claiming (c : Chip) (h : c = claiming false ∨ c = onWireClaim) :
    c.validHere releaseT .release ∧ Table.find (tagAt releaseT.body 0) c.slots = some (0, claimContext false) ∧
      c.inReset = false ∧ c.anchor? 0 = some (claimContext false, claimAnchor false) ∧ c.tableOk ∧
      (claimAnchor false).state = .claiming ∧ (claimContext false).idle = .running 900000 ∧ Table.firstOwed c.slots = none := by
  rcases h with rfl | rfl <;> decide +kernel

theorem witness_FreedFeederIsSilent :
    let f := heard .release 1 (tagBytes tagT ++ [1])
    feeding.validHere f .release ∧ f.src ≠ 0 ∧ Table.find (tagAt f.body 0) feeding.slots = some (0, feedContext) ∧
      feeding.feeder? 0 = some (feedContext, feedPart) ∧ feeding.tableOk ∧ feedPart.state = .feeding ∧ feedPart.tally = none := by
  decide +kernel
/-- Tally 41 holds the first of three entries. -/
def thirdPart : Feeder :=
  { tallied { tallyOf .awaiting 1 with size := 1 } with entries := feedPart.entries ++ [entryOf 12 { handleB with copy := 2 }] }
def thirdContext : Context := context [⟨10, 3⟩] (.feeder thirdPart)
def thirdWaiting : Chip := { waiting (tallyOf .awaiting 1) with slots := [(0, .live thirdContext)], extFree := 4095, pendFree := 253 }
theorem witness_FreedFeederIsSilent_tally :
    thirdWaiting.validHere releaseT .release ∧ releaseT.src ≠ 0 ∧
      Table.find (tagAt releaseT.body 0) thirdWaiting.slots = some (0, thirdContext) ∧
      thirdWaiting.feeder? 0 = some (thirdContext, thirdPart) ∧ thirdWaiting.tableOk ∧ thirdPart.state = .feeding ∧
      thirdPart.tally = some { tallyOf .awaiting 1 with size := 1 } := by decide +kernel
theorem witness_FreedFeederIsSilent_releaseWait :
    releasing.validHere releaseT .release ∧ Table.find (tagAt releaseT.body 0) releasing.slots = some (0, releaseContext) ∧
      releasing.feeder? 0 = some (releaseContext, releasePart) ∧ releasing.tableOk ∧ releasePart.state = .releaseWait := by
  decide +kernel
theorem witness_FreedFeederIsSilent_no_context :
    station.validHere releaseT .release ∧ Table.find (tagAt releaseT.body 0) station.slots = none := by decide +kernel

def twoEntries : List TallyEntry := [.block 10 512 1 0, .close 6400 9 0]

abbrev takesTally (c : Chip) : Prop :=
  let f := tallyFrom twoEntries
  c.validHere f .tally ∧ f.src ≠ 0 ∧ stationOf (byteAt f.body 9) = some c.self ∧
    parseTally c.self f.body = some (tallyBody twoEntries) ∧ c.tableOk

theorem witness_TallyIsAnsweredOnce : takesTally anchoring ∧ anchoring.hasPlace 0 = true := by decide +kernel
theorem witness_TallyIsAnsweredOnce_repeated :
    let m : VerdictBody := { tag := tagT, seq := 41, dest := 3, verdict := .unknown }
    let c := { anchoring with verdicts := anchoring.verdicts.set 3 (some m) }
    takesTally c ∧ c.hasPlace 0 = true ∧ c.verdicts[(3 : Station)] = some m ∧ m.seq = (tallyBody twoEntries).seq ∧
      m.tag = (tallyBody twoEntries).tag := by decide +kernel
theorem witness_TallyIsAnsweredOnce_hold :
    let c := claiming true
    takesTally c ∧ c.hasPlace 0 = true ∧ c.verdicts[(3 : Station)] = none ∧
      Table.find (tallyBody twoEntries).tag c.slots = some (0, claimContext true) ∧
      (claimContext true).role = .anchor (claimAnchor true) ∧ (claimAnchor true).state = .claiming := by decide +kernel
/-- Class 0 holds eight frames. -/
theorem witness_TallyIsAnsweredOnce_full :
    let queues := anchoring.link.queues.set 0 (List.replicate 8 (.reassert tagU))
    let c := { anchoring with link := { anchoring.link with queues := queues } }
    takesTally c ∧ c.hasPlace 0 = false := by decide +kernel

theorem witness_AcceptedEntriesAreNoticed :
    let y := tallyOf .awaiting 1
    let c := waiting y
    let f := verdictTo (.perEntry [.accept, .accept])
    c.validHere f .verdict ∧ stationOf (byteAt f.body 9) = some c.self ∧
      c.outstanding f.src = some (0, tallyContext y, tallied y, y) ∧ y.dest = f.src ∧ (tallied y).state = .feeding ∧
      ((tallied y).entries.take y.size).map Entry.item? = [itemOf 10 handleA, itemOf 11 handleB].map some ∧
      [itemOf 10 handleA, itemOf 11 handleB].length = y.size ∧ y.seq = byteAt f.body 8 ∧ (tallyContext y).tag = tagAt f.body 0 ∧
      parseVerdict f.body = some (.perEntry (List.replicate y.size .accept)) ∧ c.tableOk := by decide +kernel

theorem witness_TallyEntriesAreJudged :
    takesTally anchoring ∧ anchoring.hasPlace 0 = true ∧ anchoring.verdicts[(3 : Station)] = none ∧
      Table.find (tallyBody twoEntries).tag anchoring.slots = some (0, openContext) ∧ openContext.role = .anchor openAnchor ∧
      openAnchor.state ≠ .claiming := by decide +kernel
theorem witness_TallyEntriesAreJudged_ended : station.anchor? 0 = none := by decide
/-- Block 10 is accepted, block 9 is held, block 12 finds no extent, and 513 bytes are too long. -/
theorem witness_TallyEntriesAreJudged_block :
    let c := { anchoring with extFree := 0 }
    c.anchor? 0 = some (openContext, openAnchor) ∧ openAnchor.state ≠ .claiming ∧ c.tableOk ∧
      shapeFault 0 openContext.cover openAnchor 0 10 513 = some .shape ∧ shapeFault 0 openContext.cover openAnchor 0 9 512 = none ∧
      Coverage.holds openContext.cover 9 = true ∧ shapeFault 0 openContext.cover openAnchor 0 12 512 = none ∧
      Coverage.holds openContext.cover 12 = false ∧ noExtent openContext.cover 12 c.extFree c.params.extentCap = true ∧
      shapeFault 0 openContext.cover openAnchor 0 10 512 = none ∧ Coverage.holds openContext.cover 10 = false ∧
      noExtent openContext.cover 10 c.extFree c.params.extentCap = false := by decide
theorem witness_TallyEntriesAreJudged_close :
    anchoring.anchor? 0 = some (openContext, openAnchor) ∧ openAnchor.close = none ∧ openAnchor.state ≠ .claiming ∧
      closeFault 0 openContext.cover openAnchor 0 (closeRecord 4608 5 0) = some .overrun ∧
      closeFault 0 openContext.cover openAnchor 0 (closeRecord 5120 5 0) = none ∧
      closingHeldAt.anchor? 0 = some (closingHeldContext, closingHeld) ∧ closingHeld.close = some (closeRecord 5632 5 0) ∧
      closingHeld.state ≠ .claiming ∧ anchoring.tableOk ∧ closingHeldAt.tableOk := by decide

/-- The verdict `v` of station 1 matches the tally outstanding to it. -/
abbrev answersTally (c : Chip) (ctx : Context) (fd : Feeder) (y : Tally) (v : Verdict) : Prop :=
  let f := verdictTo v
  c.validHere f .verdict ∧ stationOf (byteAt f.body 9) = some c.self ∧ c.outstanding f.src = some (0, ctx, fd, y) ∧ y.dest = f.src ∧
    c.tableOk ∧ y.size ≤ fd.entries.length ∧ y.seq = byteAt f.body 8 ∧ ctx.tag = tagAt f.body 0 ∧ parseVerdict f.body = some v ∧
    Chip.countFits v y = true

abbrev feederAnswered (v : Verdict) : Prop :=
  let y := tallyOf .awaiting 1
  answersTally (waiting y) (tallyContext y) (tallied y) y v ∧ (tallied y).state = .feeding

abbrev releaseAnswered (v : Verdict) : Prop :=
  answersTally releasing releaseContext releasePart (tallyOf .awaiting 1) v ∧ releasePart.state = .releaseWait

theorem witness_VerdictsActAtFeeder_codes :
    feederAnswered (.perEntry [.accept, .refused]) ∧ (tallyContext (tallyOf .awaiting 1)).peerDup ≤ 65535 ∧
      (tallyContext (tallyOf .awaiting 1)).refused ≤ 65535 ∧ 1 ≤ (waiting (tallyOf .awaiting 1)).extFree ∧
      (tallyContext (tallyOf .awaiting 1)).cover.length + 1 ≤ (waiting (tallyOf .awaiting 1)).params.extentCap := by decide +kernel
theorem witness_VerdictsActAtFeeder_freed :
    releaseAnswered (.perEntry [.duplicate, .ended]) ∧ releaseContext.peerDup ≤ 65535 ∧ releaseContext.refused ≤ 65535 := by decide +kernel
theorem witness_VerdictsActAtFeeder_hold : feederAnswered .hold := by decide +kernel
/-- Station 3 is PRESENT and not visited. -/
theorem witness_VerdictsActAtFeeder_moved :
    feederAnswered (.moved 3) ∧ station.isPresent 3 = true ∧ (3 : Station) ≠ station.self ∧
      hasStation (tallyOf .awaiting 1).visited 3 = false := by decide +kernel
theorem witness_VerdictsActAtFeeder_retired : feederAnswered .retired := by decide +kernel
theorem witness_VerdictsActAtFeeder_orphaned : releaseAnswered .unknown := by decide +kernel
/-- Station 1 is visited, so that the MOVED is not followed. -/
theorem witness_VerdictsActAtFeeder_not_followed :
    feederAnswered (.moved 1) ∧ hasStation (tallyOf .awaiting 1).visited 1 = true := by decide +kernel
theorem witness_VerdictsActAtFeeder_lost :
    let fd := tallied (tallyOf .awaiting 1)
    let items := [itemOf 10 handleA, itemOf 11 handleB]
    feederAnswered .unknown ∧ itemsOf fd.entries = items ∧ fd.entries.map Entry.item? = items.map some ∧ items.length ≤ 8 ∧
      (∀ b ∈ items, b.length = blockSize 0) ∧ (items.map BlockItem.block).Nodup ∧ items.length ≤ station.params.extentCap ∧
      items.length ≤ (waiting (tallyOf .awaiting 1)).extFree + (tallyContext (tallyOf .awaiting 1)).cover.length :=
  ⟨by decide +kernel, by decide⟩

theorem witness_DueFeederFormsTally :
    feeding.inReset = false ∧ feeding.link.state = .synced ∧ feeding.feeder? 0 = some (feedContext, feedPart) ∧ feeding.tableOk ∧
      feedPart.state = .feeding ∧ feedPart.tally = none ∧ feedPart.entries.head? = some (entryOf 10 handleA) ∧
      feeding.pair[feedPart.anchor] = none ∧
      ∀ j c' f', j ≠ 0 → feeding.feeder? j = some (c', f') → f'.anchor ≠ feedPart.anchor := by
  refine ⟨by decide, by decide +kernel, by decide +kernel, by decide +kernel, by decide +kernel, by decide +kernel,
    by decide, by decide +kernel, ?_⟩
  intro j c' f' hj h
  simp [feeding, holding, Chip.feeder?, Chip.context?, Table.get, Ne.symm hj] at h

theorem witness_SettledClaimNotices :
    let c := claiming true
    c.inReset = false ∧ c.anchor? 0 = some (claimContext true, claimAnchor true) ∧ (claimAnchor true).state = .claiming ∧
      (claimAnchor true).settle = .running 1032 ∧ (claimAnchor true).close = none ∧
      (claimAnchor true).provisional.length ≤ c.notice.rb ∧ c.tableOk := by decide

theorem witness_FreedFeederIsSilent_idle :
    let ctx := context [] (.feeder (Feeder.fresh 1))
    let c := holding ctx station
    c.inReset = false ∧ c.feeder? 0 = some (ctx, Feeder.fresh 1) ∧ c.tableOk ∧ (Feeder.fresh 1).state = .feeding ∧
      ctx.idle = .running 900000 ∧ (Feeder.fresh 1).entries = [] ∧ (Feeder.fresh 1).tally = none := by decide
theorem witness_FreedFeederIsSilent_holding :
    feeding.inReset = false ∧ feeding.feeder? 0 = some (feedContext, feedPart) ∧ feeding.tableOk ∧ feedPart.state = .feeding ∧
      feedContext.idle = .running 900000 ∧ feedPart.entries ≠ [] := by decide

abbrev awaits (y : Tally) : Prop :=
  (waiting y).inReset = false ∧ (waiting y).feeder? 0 = some (tallyContext y, tallied y) ∧ (waiting y).tableOk ∧
    (tallied y).tally = some y ∧ y.stage = .awaiting ∧ y.timer = .running 1200

theorem witness_UnansweredTallyIsResent : awaits (tallyOf .awaiting 2) ∧ (tallyOf .awaiting 2).sends < 3 := by decide
theorem witness_UnansweredTallyIsResent_third : awaits (tallyOf .awaiting 3) ∧ 3 ≤ (tallyOf .awaiting 3).sends := by decide

theorem witness_UnansweredTallyIsResent_hold :
    let y := tallyOf .holding 1
    (waiting y).inReset = false ∧ (waiting y).feeder? 0 = some (tallyContext y, tallied y) ∧ (tallied y).tally = some y ∧
      y.stage = .holding ∧ y.timer = .running 1200 := by decide

theorem witness_RepeatedAndStoppedCommandsAreAnswered :
    let c := { station with cmd := { station.cmd with memory := some (9, [2, 2, 9, 5, 9, 0]) } }
    let f := command 5 []
    c.named f .quiesce ∧ c.cmd.memory = some (byteAt f.body 1, [2, 2, 9, 5, 9, 0]) := by decide +kernel

/-- RESTARTING, with part index 3. -/
theorem witness_RepeatedAndStoppedCommandsAreAnswered_busy :
    let f := command 1 [3, 2]
    (restarting station).newCommand f .setupPart ∧ (restarting station).cmd.mode = .restarting ∧ (byteAt f.body 3).toNat ≤ 3 := by
  decide +kernel
/-- Part index 4. -/
theorem witness_RepeatedAndStoppedCommandsAreAnswered_unknown :
    let f := command 1 [4, 2]
    station.newCommand f .setupPart ∧ 3 < (byteAt f.body 3).toNat ∧ station.newCommand (command 0x20 []) .bad := by decide +kernel

theorem witness_StagingIsFilledAndChecked :
    let f := command 1 [3, 2]
    tuned.newCommand f .setupPart ∧ tuned.cmd.mode = .waitingSetup ∧ tuned.fold.table = .empty ∧
      (byteAt f.body 3).toNat = (3 : Fin 4).val := by decide +kernel
theorem witness_StagingIsFilledAndChecked_missing :
    let c := { staged with cmd := { staged.cmd with staging := staged.cmd.staging.set 3 none } }
    c.newCommand (command 2 []) .go ∧ c.cmd.mode = .waitingSetup ∧ c.fold.table = .empty ∧
      c.cmd.staging[(3 : Fin 4)] = none ∧ ∀ q : Fin 4, q < 3 → c.cmd.staging[q] ≠ none := by decide +kernel
/-- Weight P - 1 is the lowest that is too large. -/
def heavy : List Byte := [0x7F, 0xFF, 0xFF, 0xFE] ++ part0.drop 4
theorem witness_StagingIsFilledAndChecked_refused :
    let c := { tuned with cmd := { tuned.cmd with staging := #v[some heavy, some part1, some part2, some [2]] } }
    c.newCommand (command 2 []) .go ∧ c.cmd.mode = .waitingSetup ∧ c.fold.table = .empty ∧
      c.cmd.staging = #v[some heavy, some part1, some part2, some [2]] ∧ setupFault heavy part1 part2 [2] = some 1 := by
  decide +kernel

theorem witness_AcceptedSetupStartsStation :
    let f := command 2 []
    staged.newCommand f .go ∧ staged.cmd.mode = .waitingSetup ∧ staged.fold.table = .empty ∧
      staged.cmd.staging = #v[some part0, some part1, some part2, some [2]] ∧ setupFault part0 part1 part2 [2] = none := by
  decide +kernel

theorem witness_AcceptedSetupStartsStation_ready :
    building.inReset = false ∧ building.fold.table = .building ∧ building.cmd.setup = some setupA ∧
      building.cmd.mode = .waitingSetup ∧ building.intake.state = .awaitHeader ∧ building.small.cache = [] ∧
      building.small.stack = [] ∧ building.small.refill = .idle := by decide
theorem witness_AcceptedSetupStartsStation_faulted :
    let c := { building with cmd := { building.cmd with mode := .faulted } }
    c.inReset = false ∧ c.fold.table = .building ∧ c.cmd.setup = some setupA ∧ c.cmd.mode ≠ .waitingSetup := by decide

theorem witness_QueryAndCountersReport :
    anchoring.newCommand (command 3 (tagBytes tagT)) .query ∧ Table.find tagT anchoring.slots = some (0, openContext) := by
  decide +kernel

theorem witness_AbortEndsObject :
    let f := command 4 (tagBytes tagT)
    anchoring.newCommand f .abort ∧ anchoring.fold.table ≠ .building ∧ anchoring.cmd.mode ≠ .restarting ∧ anchoring.tableOk ∧
      Table.find (tagAt f.body 3) anchoring.slots = some (0, openContext) ∧
      anchoring.anchor? 0 = some (openContext, openAnchor) ∧ openAnchor.state ≠ .claiming := by decide +kernel

theorem witness_QuiesceAndResumeSetMode :
    station.newCommand (command 5 []) .quiesce ∧ station.newCommand (command 6 []) .resume ∧ station.fold.table ≠ .building ∧
      (station.cmd.mode = .running ∨ station.cmd.mode = .quiesced) := by decide +kernel
theorem witness_QuiesceAndResumeSetMode_no_setup :
    tuned.newCommand (command 5 []) .quiesce ∧ tuned.fold.table ≠ .building ∧ tuned.cmd.mode = .waitingSetup := by decide +kernel

theorem witness_QueryAndCountersReport_counters :
    station.newCommand (command 7 [1]) .counters ∧ (fullAnswers station).newCommand (command 7 [0]) .counters := by decide +kernel

theorem witness_RestartEntersSequence :
    station.newCommand (command 8 []) .restart ∧ station.fold.table ≠ .building ∧ station.cmd.mode ≠ .restarting ∧
      station.intake.state = .awaitHeader ∧ station.intake.headerBytes = [] := by decide +kernel
abbrev restarts (c : Chip) : Prop :=
  c.newCommand (command 8 []) .restart ∧ c.fold.table ≠ .building ∧ c.cmd.mode ≠ .restarting

theorem witness_RestartEntersSequence_landing :
    let c := withSegment .landing (landed 2 3 0) anchoring
    restarts c ∧ c.intake.state = .landing ∧ c.intake.seg = some (landed 2 3 0) := by decide +kernel
theorem witness_RestartEntersSequence_deciding :
    let g := segment .close 0 0 0 0
    let c := withSegment .deciding g station
    restarts c ∧ c.intake.state = .deciding ∧ c.intake.seg = some g := by decide +kernel
theorem witness_RestartEntersSequence_header :
    let c := withHeader [1] station
    restarts c ∧ c.intake.state = .awaitHeader ∧ c.intake.headerBytes ≠ [] := by decide +kernel

theorem witness_RestartReturnsEveryHandle :
    let c := restarting station
    c.inReset = false ∧ c.cmd.mode = .restarting ∧ c.small.refill = .idle ∧ c.large.refill = .idle ∧ c.cmd.faultAtEnd = false := by
  decide

/-- A = 63 = M - 1, the largest; and A = 0. -/
theorem witness_RefillReadsRing :
    let c := refilling (.producer 0)
    c.inReset = false ∧ c.small.refill = .producer 0 ∧ (c.pool .small).cons < (c.ring .small).size ∧ 63 < (c.ring .small).size ∧
      ((c.pool .small).cons + 63) % (c.ring .small).size = (59#32).toNat % (c.ring .small).size ∧
      ((c.pool .small).cons + 0) % (c.ring .small).size = (60#32).toNat % (c.ring .small).size := by decide
theorem witness_RefillReadsRing_entry :
    (refilling (.entries 6 5)).inReset = false ∧ ((refilling (.entries 6 5)).pool .small).refill = .entries 6 5 := by decide
/-- Entry 1 is read, at 1010H: entry 0, at 1000H, and the producer word are not. -/
theorem witness_RefillReadsRing_other :
    let c := refilling (.entries 6 5)
    (∀ n, (c.pool .small).refill = .producer n → (0x1000 : Addr) ≠ (c.ring .small).producer) ∧
      ∀ r got, (c.pool .small).refill = .entries r got →
        (0x1000 : Addr) ≠ (c.ring .small).base + BitVec.ofNat 64 (16 * (((c.pool .small).cons + got) % (c.ring .small).size)) := by
  refine ⟨fun n h => (by cases h), fun r got h => ?_⟩
  cases h
  decide

theorem witness_RefillReadsRing_consumer :
    (refilling (.consumer 6)).inReset = false ∧ ((refilling (.consumer 6)).pool .small).refill = .consumer 6 := by decide

theorem witness_RecordWriteBeginsOrPolls :
    (fullRing .idle).inReset = false ∧ (fullRing .idle).cmd.setup = some setupA ∧
      (fullRing .idle).notice.queue = .front tagT 3 :: [] ∧ (fullRing .idle).notice.writing = none := by decide
theorem witness_RecordWriteBeginsOrPolls_word :
    (fullRing .reading).inReset = false ∧ (fullRing .reading).notice.poll = .reading := by decide
theorem witness_RecordWriteBeginsOrPolls_expiry :
    (fullRing (.waiting (.running 1008))).inReset = false ∧ (fullRing (.waiting (.running 1008))).notice.poll = .waiting (.running 1008) := by decide

theorem witness_WrittenRecordLeavesQueue :
    writing.inReset = false ∧ writing.notice.writing = some { notice := .front tagT 3, queued := true } ∧
      writing.notice.queue = .front tagT 3 :: [] := by decide

theorem witness_PayloadBytesReachMemory :
    landing.chip.inReset = false ∧ ((firstOf handleA 1 landing.chip.payloadWrites).map fun w => w.addr).Nodup := by decide

/-! ## Witnesses of the invariants, of the mode table and of the filters -/

/-- An anchor at the lowest index and a feeder at the highest. -/
def twoContexts : Chip :=
  { station with
    slots := [(0, .live openContext), (255, .live { feedContext with tag := tagU })], extFree := 4094, pendFree := 254,
    notice := { station.notice with re := 2, rb := 2 } }

theorem witness_StepKeepsTableForm :
    twoContexts.tableOk ∧ ∃ t, step { on twoContexts with pending := [.anchorIdleExpiry 0] } = .next t :=
  ⟨by decide, _, rfl⟩

/-- The same with the handles of its entries outside the caches. -/
def apartHandles : Chip := { twoContexts with small := BufferPool.reset }

theorem witness_StepKeepsReservationsAndHandles :
    apartHandles.reservationsOk ∧ apartHandles.handlesOk ∧
      ∃ t, step { on apartHandles with pending := [.presenceExpiry 1] } = .next t :=
  ⟨⟨by decide, by decide, by decide, by decide, by decide, by decide, by decide, by decide⟩, by decide, _, rfl⟩

theorem witness_StepKeepsPoolAccounts :
    twoContexts.accountsOk ∧ ∃ t, step { on twoContexts with pending := [.anchorIdleExpiry 0] } = .next t :=
  ⟨by decide, _, rfl⟩

/-- Every count stands at 65535. -/
def fullCounts : Chip :=
  { station with
    cmd := { station.cmd with counters := Vector.replicate 16 65535 },
    notice := { station.notice with latches := [{ event := .peerPresent, concerned := 1, set := 2, count := 65535 }] } }

theorem witness_StepKeepsQueuesAndCounts_counts :
    fullCounts.countsOk ∧ ∃ t, step { on fullCounts with pending := [.falseStart] } = .next t :=
  ⟨by decide, _, rfl⟩

/-- In reset, out of it, and strapped to 0. -/
theorem witness_StepKeepsFaultPin :
    Chip.reset.faultPinOk ∧ station.faultPinOk ∧
      Chip.faultPinOk { fresh with self := 0, cmd := { fresh.cmd with faultPin := true } } := by decide

/-- A feeder waits while a second collision falls. -/
def struckFeeder : Chip :=
  { feeding with link := { feeding.link with wire := some { cls := 3, frame := .beacon 2 7, queued := false, withdraw := false }, strike := true } }

theorem witness_FaultedStationFeedsNothing :
    struckFeeder.tableOk ∧ (struckFeeder.cmd.mode = .faulted → struckFeeder.feeders = []) ∧ struckFeeder.feeders = [0] ∧
      (after .collision struckFeeder).cmd.mode = .faulted := by decide

theorem witness_StationModeMoves :
    (after .pinReset station).cmd.mode ≠ station.cmd.mode ∧ (after .powerTableReady building).cmd.mode ≠ building.cmd.mode ∧
      (after .collision struckFeeder).cmd.mode ≠ struckFeeder.cmd.mode ∧
      (after .restartGather (restarting station)).cmd.mode ≠ (restarting station).cmd.mode := by decide
theorem witness_StationModeMoves_commands :
    let quiesced := after (.quiesce (command 5 [])) station
    quiesced.cmd.mode ≠ station.cmd.mode ∧ (after (.restart (command 8 [])) station).cmd.mode ≠ station.cmd.mode ∧
      (after (.resume (heard .command 0 [0xFF, 10, 6])) quiesced).cmd.mode ≠ quiesced.cmd.mode := by decide +kernel

theorem witness_PowerTableMoves :
    (after .pinReset station).fold.table ≠ station.fold.table ∧
      (after .powerTableReady building).fold.entries ≠ building.fold.entries := by decide
theorem witness_PowerTableMoves_go : (after (.go (command 2 [])) staged).cmd.setup ≠ staged.cmd.setup := by decide +kernel

/-- The excluded tag is 99H; a count of 16 is the largest a setup may give. -/
theorem witness_OpenFilterAdmitsUnlisted :
    let c := withHeader ((dataHeader.set 7 0x99).set 30 0xFE) station
    judges c ∧ (parseHeader (c.intake.headerBytes ++ [0x3E])).map (fun h => h.tag.session) = some 0x99 ∧
      c.params.filterMode = .opened ∧ (0x99 : BitVec 32) ∈ c.params.filterTags := by decide
theorem witness_OpenFilterAdmitsUnlisted_admitted :
    let c := withHeader dataHeader station
    judges c ∧ (parseHeader (c.intake.headerBytes ++ [0xC6])).map (fun h => h.tag.session) = some 0x11 ∧
      c.params.filterMode = .opened ∧ (0x11 : BitVec 32) ∉ c.params.filterTags := by decide
theorem witness_OpenFilterAdmitsUnlisted_setup : setupFault part0 part1 part2 [2, 16] = none := by decide

/-- A CLOSING anchor with a close of N blocks: at N = 2 block 2 is OVERRUN, at N = 3 with F = 512 its 3 bytes are SHAPE. -/
def closingAnchor (blocks : Nat) : Anchor :=
  { anchorPart .closing with close := some { length := 512 * blocks, fold := 0, blocks := blocks, final := some 512 } }

def closingContext (blocks : Nat) : Context := context [] (.anchor (closingAnchor blocks))

abbrev misshapen (blocks : Nat) (o : ObjOutcome) : Prop :=
  let c := withHeader dataHeader (holding (closingContext blocks) station)
  judges c ∧ (parseHeader (c.intake.headerBytes ++ [0xC6])).map (fun h => Chip.segmentOf h 255) = some (segment .data 2 3 0 0) ∧
    hostSession c.params.filterMode c.params.filterTags tagT.session = some 255 ∧
    Table.find tagT c.slots = some (0, closingContext blocks) ∧ c.anchor? 0 = some (closingContext blocks, closingAnchor blocks) ∧
    c.tableOk ∧ (closingAnchor blocks).state ≠ .claiming ∧ Coverage.holds (closingContext blocks).cover 2 = false ∧
    shapeFault 0 [] (closingAnchor blocks) 0 2 3 = some o

theorem witness_MisshapenBlockEndsObject_overrun : misshapen 2 .overrun := by decide
theorem witness_MisshapenBlockEndsObject_shape : misshapen 3 .shape := by decide
/-- With no close recorded, 513 bytes at size code 0. -/
theorem witness_MisshapenBlockEndsObject_open : openAnchor.close = none ∧ blockSize 0 < 513 := by decide

/-- The tally of station 3 at a feeder, and where no context holds its tag. -/
theorem witness_TallyIsAnsweredOnce_moved :
    takesTally feeding ∧ feeding.hasPlace 0 = true ∧ feeding.verdicts[(3 : Station)] = none ∧
      Table.find (tallyBody twoEntries).tag feeding.slots = some (0, feedContext) ∧ feedContext.role = .feeder feedPart := by
  decide +kernel
theorem witness_TallyIsAnsweredOnce_no_context :
    takesTally station ∧ station.hasPlace 0 = true ∧ station.verdicts[(3 : Station)] = none ∧
      Table.find (tallyBody twoEntries).tag station.slots = none := by decide +kernel

theorem witness_RepeatedAndStoppedCommandsAreAnswered_fault :
    let c := { station with cmd := { station.cmd with mode := .faulted } }
    c.newCommand (command 5 []) .quiesce ∧ c.fold.table ≠ .building ∧ c.cmd.mode = .faulted := by decide +kernel
theorem witness_RepeatedAndStoppedCommandsAreAnswered_already :
    station.newCommand (command 2 []) .go ∧ station.fold.table ≠ .building ∧ station.cmd.mode = .running := by decide +kernel

/-! ## Witnesses of the ends from CLAIMING, of the drops and of the verdicts that are not taken

`Table.firstOwed c.slots = none` is the first case of `Chip.noneOwed`. -/

/-- A CLAIMING anchor for T that holds the short block 0, so that any block above it is misshapen. -/
def shortAnchor (close : Option CloseRec) : Anchor :=
  { claimAnchor true with provisional := [{ itemOf 0 handleA with length := 3 }], shortMark := some (0, 3), close := close }
def shortContext (close : Option CloseRec) : Context := context [⟨0, 1⟩] (.anchor (shortAnchor close))
def shortClaiming (close : Option CloseRec) : Chip :=
  let c := holding (shortContext close) station
  { c with notice := { c.notice with rb := 1 } }

/-- Block 1 at an anchor whose close gives one block. -/
theorem witness_MisshapenBlockEndsObject_claiming :
    let close := some (closeRecord 3 5 0)
    let g := segment .data 1 512 0 0
    let c := resuming g (shortClaiming close)
    c.toLookup .intakeRoomGranted g ∧ g.hdr.kind = .data ∧ Table.find g.hdr.tag c.slots = some (0, shortContext close) ∧
      c.anchor? 0 = some (shortContext close, shortAnchor close) ∧ c.tableOk ∧ (shortAnchor close).state = .claiming ∧
      (shortAnchor close).provisional.length < Config.provisionalBlocks ∧ Coverage.holds (shortContext close).cover 1 = false ∧
      shapeFault 0 (shortContext close).cover (shortAnchor close) 0 1 512 = some .overrun ∧ Table.firstOwed c.slots = none :=
  ⟨resuming_toLookup _ _ _ _ _ _ rfl, by decide⟩

/-- At its completion the block fails the same check, from CLAIMING and from CLOSING. -/
theorem witness_WireDropRecyclesHandle_ended :
    let close := some (closeRecord 3 5 0)
    let c := withSegment .landing (landed 1 512 9) (shortClaiming close)
    lands c (landed 1 512 9) ∧ Table.find tagT c.slots = some (0, shortContext close) ∧ c.context? 0 = some (shortContext close) ∧
      Coverage.holds (shortContext close).cover 1 = false ∧
      shapeFault 0 (shortContext close).cover (shortAnchor close) 0 1 512 = some .overrun ∧
      (shortAnchor close).state = .claiming ∧ Table.firstOwed c.slots = none := by decide
theorem witness_WireDropRecyclesHandle_ended_closing :
    let c := withSegment .landing (landed 2 3 9) (holding (closingContext 2) station)
    lands c (landed 2 3 9) ∧ Table.find tagT c.slots = some (0, closingContext 2) ∧ c.context? 0 = some (closingContext 2) ∧
      Coverage.holds (closingContext 2).cover 2 = false ∧ shapeFault 0 [] (closingAnchor 2) 0 2 3 = some .overrun ∧
      (closingAnchor 2).state ≠ .claiming := by decide

/-- The GOOD flag finds the table walk unfinished. -/
theorem witness_WireDropRecyclesHandle_walk :
    let g := { landed 2 3 0 with sum := none }
    let c := withSegment .landing g { anchoring with fold := { station.fold with walk := some 512, waiting := [1, 2, 3] } }
    c.portReady = true ∧ c.intake.state = .landing ∧ c.intake.seg = some g ∧ g.handle = some handleA ∧ c.fold.walk ≠ none := by decide

/-- A CLAIMING anchor with eight provisional blocks. -/
def eightAnchor : Anchor :=
  { anchorPart .claiming with accepted := 8, provisional := (List.range 8).map fun k => itemOf k handleB }
def eightContext : Context := context [⟨0, 8⟩] (.anchor eightAnchor)

/-- No place among eight provisional blocks, no extent beyond the segment's own reservation, and no pending entry. -/
theorem witness_WireDropRecyclesHandle_claim_wait :
    let g := landed 20 512 9
    let c := withSegment .landing g (holding eightContext station)
    lands c g ∧ Table.find g.hdr.tag c.slots = some (0, eightContext) ∧ c.context? 0 = some eightContext ∧
      Coverage.holds eightContext.cover 20 = false ∧ c.completionShort g eightContext :=
  ⟨by decide, by decide, by decide, by decide, by decide, .inl (by decide)⟩
theorem witness_WireDropRecyclesHandle_extent_short :
    let g := { landed 20 512 9 with extentRes := false }
    let c := withSegment .landing g { anchoring with extFree := 0 }
    lands c g ∧ Table.find g.hdr.tag c.slots = some (0, openContext) ∧ c.context? 0 = some openContext ∧
      Coverage.holds openContext.cover 20 = false ∧ c.completionShort g openContext :=
  ⟨by decide, by decide, by decide, by decide, by decide, .inr (by decide)⟩
theorem witness_WireDropRecyclesHandle_pending_full :
    let g := { landed 20 512 9 with extentRes := false }
    let c := withSegment .landing g { feeding with pendFree := 0 }
    lands c g ∧ Table.find g.hdr.tag c.slots = some (0, feedContext) ∧ c.context? 0 = some feedContext ∧
      Coverage.holds feedContext.cover 20 = false ∧ c.completionShort g feedContext :=
  ⟨by decide, by decide, by decide, by decide, by decide, by decide, by decide⟩

/-- A DATA segment of T finds the context `ctx`, and is dropped on counter `n`. -/
abbrev dropsAt (c : Chip) (k size : Nat) (ctx : Context) (n : Fin 16) : Prop :=
  let g := { segment .data k 512 0 0 with hdr := { (segment .data k 512 0 0).hdr with sizeCode := size } }
  let d := withSegment .deciding { g with granted := true } c
  d.toLookup .intakeRoomGranted g ∧ g.hdr.kind = .data ∧ Table.find g.hdr.tag d.slots = some (0, ctx) ∧
    d.context? 0 = some ctx ∧ d.tableOk ∧ d.dataDrop g ctx n

theorem dropsAt_toLookup (c : Chip) (k size : Nat) (h : c.inReset = false) :
    let g := { segment .data k 512 0 0 with hdr := { (segment .data k 512 0 0).hdr with sizeCode := size } }
    (withSegment .deciding { g with granted := true } c).toLookup .intakeRoomGranted g :=
  .inr (.inr ⟨_, rfl, h, rfl, rfl, rfl, rfl, rfl, rfl, rfl, rfl⟩)

/-- The last covered block. -/
theorem witness_DataSegmentLands_duplicate : dropsAt anchoring 9 0 openContext 4 :=
  ⟨dropsAt_toLookup _ _ _ rfl, by decide, by decide, by decide, by decide, rfl⟩
theorem witness_DataSegmentLands_late : dropsAt releasing 20 0 releaseContext 3 :=
  ⟨dropsAt_toLookup _ _ _ rfl, by decide, by decide, by decide, by decide, rfl⟩
theorem witness_DataSegmentLands_misfit : dropsAt feeding 20 1 feedContext 0 :=
  ⟨dropsAt_toLookup _ _ _ rfl, by decide, by decide, by decide, by decide, rfl⟩
theorem witness_DataSegmentLands_claim_wait : dropsAt (holding eightContext station) 20 0 eightContext 5 :=
  ⟨dropsAt_toLookup _ _ _ rfl, by decide, by decide, by decide, by decide, rfl⟩
theorem witness_DataSegmentLands_extent_short : dropsAt { anchoring with extFree := 0 } 20 0 openContext 5 :=
  ⟨dropsAt_toLookup _ _ _ rfl, by decide, by decide, by decide, by decide, by decide, .inl (by decide)⟩
theorem witness_DataSegmentLands_pending_full : dropsAt { feeding with pendFree := 0 } 20 0 feedContext 5 :=
  ⟨dropsAt_toLookup _ _ _ rfl, by decide, by decide, by decide, by decide, .inl (by decide)⟩
theorem witness_DataSegmentLands_no_buffer : dropsAt { anchoring with small := BufferPool.reset } 20 0 openContext 6 :=
  ⟨dropsAt_toLookup _ _ _ rfl, by decide, by decide, by decide, by decide, by decide, .inr (by decide)⟩

/-- A close of two blocks where block 4 is held; and one that differs from the close recorded. -/
theorem witness_CloseCompletesObject_claiming_fault :
    let g := segment .close 0 0 1024 5
    let c := resuming g (claiming true)
    c.toLookup .intakeRoomGranted g ∧ closes c g (claimContext true) ∧ (claimAnchor true).close = none ∧
      closeFault 0 (claimContext true).cover (claimAnchor true) 0 (closeRecord 1024 5 0) = some .overrun ∧
      (claimAnchor true).state = .claiming ∧ Table.firstOwed c.slots = none :=
  ⟨resuming_toLookup _ _ _ _ _ _ rfl, by decide⟩
theorem witness_CloseCompletesObject_claiming_conflict :
    let g := segment .close 0 0 3 6
    let close := closeRecord 3 5 0
    let c := resuming g (shortClaiming (some close))
    c.toLookup .intakeRoomGranted g ∧ closes c g (shortContext (some close)) ∧ (shortAnchor (some close)).close = some close ∧
      close.fold ≠ g.hdr.fold ∧ (shortAnchor (some close)).state = .claiming ∧ Table.firstOwed c.slots = none :=
  ⟨resuming_toLookup _ _ _ _ _ _ rfl, by decide⟩

theorem witness_AbortEndsObject_claiming :
    let f := command 4 (tagBytes tagT)
    let c := claiming false
    c.newCommand f .abort ∧ c.fold.table ≠ .building ∧ c.cmd.mode ≠ .restarting ∧ c.tableOk ∧
      Table.find (tagAt f.body 3) c.slots = some (0, claimContext false) ∧
      c.anchor? 0 = some (claimContext false, claimAnchor false) ∧ (claimAnchor false).state = .claiming ∧
      Table.firstOwed c.slots = none := by decide +kernel

/-- The recorded close is met by the one provisional block, or lacks a block. -/
theorem witness_SettledClaimNotices_close (l : Nat) (h : l = 3 ∨ l = 515) :
    let r := closeRecord l 1 0
    let c := shortClaiming (some r)
    c.inReset = false ∧ c.anchor? 0 = some (shortContext (some r), shortAnchor (some r)) ∧
      (shortAnchor (some r)).state = .claiming ∧ (shortAnchor (some r)).settle = .running 1032 ∧
      (shortAnchor (some r)).close = some r ∧ (shortAnchor (some r)).provisional.length ≤ c.notice.rb ∧ c.tableOk ∧
      Coverage.whole (shortContext (some r)).cover r.blocks = decide (l = 3) := by
  rcases h with rfl | rfl <;> decide

/-- A VERDICT of an older tally, one whose codes do not number the entries, and one to station 3. -/
theorem witness_VerdictsActAtFeeder_stale :
    let y := tallyOf .awaiting 1
    let old := heard .verdict 1 ({ tag := tagT, seq := 40, dest := 2, verdict := .hold } : VerdictBody).bytes
    let short := verdictTo (.perEntry [.accept])
    (waiting y).validHere old .verdict ∧ stationOf (byteAt old.body 9) = some (waiting y).self ∧
      (waiting y).outstanding old.src = some (0, tallyContext y, tallied y, y) ∧ y.seq ≠ byteAt old.body 8 ∧
      (waiting y).validHere short .verdict ∧ y.seq = byteAt short.body 8 ∧
      parseVerdict short.body = some (.perEntry [.accept]) ∧ Chip.countFits (.perEntry [.accept]) y = false := by decide +kernel
theorem witness_VerdictsActAtFeeder_other :
    let f := heard .verdict 1 ({ tag := tagT, seq := 41, dest := 3, verdict := .hold } : VerdictBody).bytes
    station.validHere f .verdict ∧ stationOf (byteAt f.body 9) ≠ some station.self := by decide +kernel

/-- Class 2 is empty, and no other feeder holds an entry. -/
theorem witness_DueFeederFormsTally_frame :
    feeding.link.queues[(2 : Fin 4)] = [] ∧ feeding.hasPlace 2 = true ∧
      ∀ j c' f', j ≠ 0 → feeding.feeder? j = some (c', f') → f'.tally ≠ none ∨ f'.entries = [] := by
  refine ⟨by decide, by decide, fun j c' f' hj h => ?_⟩
  simp [feeding, holding, Chip.feeder?, Chip.context?, Table.get, Ne.symm hj] at h

theorem witness_RestartReturnsEveryHandle_poll :
    let c := restarting (fullRing (.waiting (.running 1008)))
    c.inReset = false ∧ c.cmd.mode = .restarting ∧ c.small.refill = .idle ∧ c.large.refill = .idle ∧ c.cmd.faultAtEnd = false := by
  decide

end Sys2Proof.Tests
end

section
/-! PROOFS. The fold arithmetic (02_the_fold_sum.md): the fold reduction is the remainder modulo P, the power table holds the
repeated squares of the weight, the table walk multiplies them to a power, and the streaming adds up the weighted symbols. -/

namespace Sys2Proof.Machine

/-! ## The fold reduction (R26) -/

theorem foldP_pos : 0 < foldP := by decide

/-- A pass keeps the remainder, since 2^31 is 1 modulo P. -/
theorem foldPass_mod (x : Nat) : foldPass x % foldP = x % foldP := by
  unfold foldPass foldP
  omega

theorem foldPasses_mod (n x : Nat) : foldPasses n x % foldP = x % foldP := by
  induction n generalizing x with
  | zero => rfl
  | succ n ih =>
    unfold foldPasses
    split
    · rfl
    · rw [ih, foldPass_mod]

/-- Three passes bring a value of 64 bits below 2^34, then to at most 7 above 2^31, then below 2^31. -/
theorem foldPasses_lt {x : Nat} (hx : x < 2 ^ 64) : foldPasses 4 x < 2147483648 := by
  have h1 : foldPass x < 2 ^ 34 := by unfold foldPass; omega
  have h2 : foldPass (foldPass x) ≤ 2147483648 + 7 := by unfold foldPass at h1 ⊢; omega
  have h3 : foldPass (foldPass (foldPass x)) < 2147483648 := by
    rw [foldPass.eq_1 (foldPass (foldPass x))]; omega
  simp only [foldPasses]
  repeat' split
  all_goals omega

theorem foldReduce_eq_mod {x : Nat} (hx : x < 2 ^ 64) : foldReduce x = x % foldP := by
  have hmod := foldPasses_mod 4 x
  have hlt := foldPasses_lt hx
  rw [← hmod]
  unfold foldReduce
  generalize foldPasses 4 x = y at hlt
  dsimp only
  unfold foldP
  split <;> omega

/-- The product of two fold values fits in 64 bits. -/
theorem foldReduce_mul {x y : Nat} (hx : x < foldP) (hy : y < foldP) : foldReduce (x * y) = x * y % foldP :=
  foldReduce_eq_mod <| calc
    x * y < foldP * foldP := Nat.mul_lt_mul'' hx hy
    _ < 2 ^ 64 := by decide

/-! ## The power table (R27) and the table walk (R30) -/

theorem powersFrom_length (n x : Nat) : (powersFrom n x).length = n := by
  induction n generalizing x with
  | zero => rfl
  | succ n ih => simp [powersFrom, ih]

/-- Each entry is the square of the one before, so entry `t` is the power with exponent 2^t. -/
theorem powersFrom_getElem? {n t x : Nat} (ht : t < n) (hx : x < foldP) :
    (powersFrom n x)[t]? = some (x ^ 2 ^ t % foldP) := by
  induction n generalizing t x with
  | zero => omega
  | succ n ih =>
    cases t with
    | zero => simp [powersFrom, Nat.mod_eq_of_lt hx]
    | succ t =>
      rw [powersFrom, List.getElem?_cons_succ, foldReduce_mul hx hx, ih (by omega) (Nat.mod_lt _ foldP_pos), ← Nat.pow_mod,
        ← Nat.pow_two, ← Nat.pow_mul, ← Nat.pow_succ']

/-- The entry of a set bit is taken: alone when it is the first, and as a factor afterwards. -/
theorem tableWalk_cons_of_odd {e : Nat} (h : e % 2 = 1) (p : Nat) (ps : List Nat) (r : Option Nat) :
    tableWalk (p :: ps) e r = tableWalk ps (e / 2) (some (r.elim p fun x => foldReduce (x * p))) := by
  cases r <;> simp [tableWalk, h]

/-- The entry of a clear bit is passed over. -/
theorem tableWalk_cons_of_even {e : Nat} (h : e % 2 = 0) (p : Nat) (ps : List Nat) (r : Option Nat) :
    tableWalk (p :: ps) e r = tableWalk ps (e / 2) r := by
  cases r <;> simp [tableWalk, h]

/-- The walk over the squares of `x` multiplies what it has taken by x^e. -/
theorem tableWalk_powersFrom {n x e : Nat} {r : Option Nat} (hx : x < foldP) (he : e < 2 ^ n) (hr : r.getD 1 < foldP) :
    (tableWalk (powersFrom n x) e r).getD 1 = r.getD 1 * x ^ e % foldP := by
  induction n generalizing x e r with
  | zero =>
    obtain rfl : e = 0 := by omega
    simp [powersFrom, tableWalk, Nat.mod_eq_of_lt hr]
  | succ n ih =>
    have hlt : x * x % foldP < foldP := Nat.mod_lt _ foldP_pos
    have he' : e / 2 < 2 ^ n := by omega
    have hpow : (x * x) ^ (e / 2) = x ^ (2 * (e / 2)) := by rw [← Nat.pow_two, ← Nat.pow_mul]
    rw [powersFrom, foldReduce_mul hx hx]
    obtain heven | hodd := Nat.mod_two_eq_zero_or_one e
    · rw [tableWalk_cons_of_even heven, ih hlt he' hr, Nat.mul_mod, ← Nat.pow_mod, ← Nat.mul_mod, hpow,
        show 2 * (e / 2) = e by omega]
    · have htaken : r.elim x (fun y => foldReduce (y * x)) = r.getD 1 * x % foldP := by
        cases r with
        | none => simp [Nat.mod_eq_of_lt hx]
        | some y => exact foldReduce_mul hr hx
      rw [tableWalk_cons_of_odd hodd, htaken, ih hlt he' (Nat.mod_lt _ foldP_pos), Option.getD_some, Nat.mul_mod, Nat.mod_mod,
        ← Nat.pow_mod, ← Nat.mul_mod, hpow, Nat.mul_assoc, ← Nat.pow_succ', show (2 * (e / 2)).succ = e by omega]

/-- W^e from the power table, for every exponent below 2^31. -/
theorem firstPower_powerTable {w e : Nat} (hw : w < foldP) (he : e < 2 ^ 31) :
    firstPower (powerTable w) e = w ^ e % foldP := by
  simpa [firstPower, powerTable] using tableWalk_powersFrom (r := none) hw he (by decide)

/-- Settles O25: the passes keep the remainder and end below 2^31, and the table is filled by squaring. -/
theorem foldArithmeticIsModular : Obligations.FoldArithmeticIsModular := by
  refine ⟨fun x hx => foldReduce_eq_mod hx, fun w _ hw => ⟨powersFrom_length 31 w, fun t ht => ?_⟩⟩
  exact powersFrom_getElem? ht (by omega)

/-! ## The period of the weights (R23)

7 has the order P - 1 modulo P, so its powers are all the values from 1 to P - 1, and what holds of 7^(P - 1) holds of every
W^(P - 1). -/

/-- The numbers other than `m`, moved together. -/
def closeGap (m x : Nat) : Nat :=
  if m < x then x - 1 else x

theorem closeGap_lt {m x n : Nat} (hm : m ≤ n) (hx : x ≤ n) (hne : x ≠ m) : closeGap m x < n := by
  unfold closeGap
  split <;> omega

theorem closeGap_injective {m x y : Nat} (hx : x ≠ m) (hy : y ≠ m) (h : closeGap m x = closeGap m y) : x = y := by
  unfold closeGap at h
  split at h <;> split at h <;> omega

/-- An injection of the numbers below `n` into themselves meets every one of them. -/
theorem exists_eq_of_injective_below {n : Nat} {f : Nat → Nat} (hf : ∀ i, i < n → f i < n)
    (hinj : ∀ i j, i < j → j < n → f i ≠ f j) {y : Nat} (hy : y < n) : ∃ i, i < n ∧ f i = y := by
  induction n generalizing f y with
  | zero => omega
  | succ n ih =>
    by_cases hlast : y = f n
    · exact ⟨n, Nat.lt_succ_self n, hlast.symm⟩
    · have hn : f n ≤ n := Nat.le_of_lt_succ (hf n (Nat.lt_succ_self n))
      have hne : ∀ i, i < n → f i ≠ f n := fun i hi => hinj i n hi (Nat.lt_succ_self n)
      have hrange : ∀ i, i < n → closeGap (f n) (f i) < n := fun i hi =>
        closeGap_lt hn (Nat.le_of_lt_succ (hf i (Nat.lt_succ_of_lt hi))) (hne i hi)
      have hgapInj : ∀ i j, i < j → j < n → closeGap (f n) (f i) ≠ closeGap (f n) (f j) := fun i j hij hj heq =>
        hinj i j hij (Nat.lt_succ_of_lt hj) (closeGap_injective (hne i (Nat.lt_trans hij hj)) (hne j hj) heq)
      obtain ⟨i, hi, heq⟩ := ih hrange hgapInj (closeGap_lt hn (Nat.le_of_lt_succ hy) hlast)
      exact ⟨i, Nat.lt_succ_of_lt hi, closeGap_injective (hne i hi) hlast heq⟩

/-- The exponents that give 1 modulo `p` pass to multiples. -/
theorem pow_mul_mod_eq_one {p a n : Nat} (hp : 1 < p) (h : a ^ n % p = 1) (k : Nat) : a ^ (n * k) % p = 1 := by
  rw [Nat.pow_mul, Nat.pow_mod, h, Nat.one_pow, Nat.mod_eq_of_lt hp]

/-- They pass to the greatest common divisor, along Euclid's algorithm. -/
theorem pow_gcd_mod_eq_one {p a : Nat} (hp : 1 < p) (m n : Nat) (hm : a ^ m % p = 1) (hn : a ^ n % p = 1) :
    a ^ Nat.gcd m n % p = 1 := by
  induction m, n using Nat.gcd.induction with
  | H0 n => rwa [Nat.gcd_zero_left]
  | H1 m n _ ih =>
    have hrest : a ^ (n % m) % p = 1 := by
      rwa [← Nat.div_add_mod n m, Nat.pow_add, Nat.mul_mod, pow_mul_mod_eq_one hp hm, Nat.one_mul, Nat.mod_mod] at hn
    rw [Nat.gcd_rec]
    exact ih hrest hm

/-- A number whose order modulo `p` is p - 1 has every value from 1 to p - 1 among its powers. -/
theorem exists_pow_mod_eq {p a : Nat} (hp : 1 < p) (hone : a ^ (p - 1) % p = 1)
    (horder : ∀ d, 0 < d → d < p - 1 → a ^ d % p ≠ 1) {w : Nat} (h0 : 0 < w) (hw : w < p) : ∃ i, a ^ i % p = w := by
  have hpos : ∀ i, i < p - 1 → 0 < a ^ i % p := by
    intro i hi
    refine Nat.pos_of_ne_zero fun hzero => ?_
    rw [show p - 1 = i + (p - 1 - i) by omega, Nat.pow_add, Nat.mul_mod, hzero, Nat.zero_mul, Nat.zero_mod] at hone
    omega
  have hdistinct : ∀ i j, i < j → j < p - 1 → a ^ i % p ≠ a ^ j % p := by
    intro i j hij hj heq
    refine horder (j - i) (by omega) (by omega) ?_
    calc a ^ (j - i) % p
        = a ^ (p - 1) * a ^ (j - i) % p := by rw [Nat.mul_mod, hone, Nat.one_mul, Nat.mod_mod]
      _ = a ^ j * a ^ (p - 1 - i) % p := by
        rw [← Nat.pow_add, ← Nat.pow_add, show p - 1 + (j - i) = j + (p - 1 - i) by omega]
      _ = a ^ i * a ^ (p - 1 - i) % p := by rw [Nat.mul_mod, ← heq, ← Nat.mul_mod]
      _ = 1 := by rw [← Nat.pow_add, show i + (p - 1 - i) = p - 1 by omega, hone]
  have hrange : ∀ i, i < p - 1 → a ^ i % p - 1 < p - 1 := by
    intro i hi
    have hlt := Nat.mod_lt (a ^ i) (Nat.lt_trans Nat.zero_lt_one hp)
    have hi0 := hpos i hi
    omega
  obtain ⟨i, hi, heq⟩ := exists_eq_of_injective_below (f := fun i => a ^ i % p - 1) hrange
    (fun i j hij hj heq => hdistinct i j hij hj (by
      have hi0 := hpos i (Nat.lt_trans hij hj)
      have hj0 := hpos j hj
      omega)) (show w - 1 < p - 1 by omega)
  refine ⟨i, ?_⟩
  have hi0 := hpos i hi
  omega

/-- The primes whose product is P - 1. -/
def periodPrimes : List Nat := [2, 3, 3, 7, 11, 31, 151, 331]

theorem periodPrimes_prime : ∀ q ∈ periodPrimes, ∀ d, d < q + 1 → d ∣ q → d = 1 ∨ d = q := by decide +kernel

theorem coprime_product {m : Nat} {l : List Nat} (h : ∀ q ∈ l, Nat.Coprime m q) : Nat.Coprime m (l.foldr (· * ·) 1) := by
  induction l with
  | nil => exact Nat.gcd_one_right m
  | cons q l ih =>
    exact Nat.Coprime.mul_right (h q List.mem_cons_self) (ih fun r hr => h r (List.mem_cons_of_mem q hr))

/-- A divisor of P - 1 other than 1 is a multiple of one of the primes. -/
theorem exists_periodPrime_dvd {m : Nat} (hm : m ∣ foldP - 1) (hne : m ≠ 1) : ∃ q, q ∈ periodPrimes ∧ q ∣ m := by
  refine Classical.byContradiction fun hnone => hne ?_
  have hcop : ∀ q ∈ periodPrimes, Nat.Coprime m q := by
    intro q hq
    have hpos : 0 < q := (by decide : ∀ q ∈ periodPrimes, 0 < q) q hq
    obtain hone | heq := periodPrimes_prime q hq (Nat.gcd m q) (Nat.lt_succ_of_le (Nat.gcd_le_right m hpos))
      (Nat.gcd_dvd_right m q)
    · exact hone
    · exact absurd ⟨q, hq, heq ▸ Nat.gcd_dvd_left m q⟩ hnone
  have hproduct : foldP - 1 = periodPrimes.foldr (· * ·) 1 := by decide
  exact Nat.Coprime.eq_one_of_dvd (coprime_product hcop) (hproduct ▸ hm)

theorem seven_pow_mod {e : Nat} (he : e < 2 ^ 31) : 7 ^ e % foldP = firstPower (powerTable 7) e :=
  (firstPower_powerTable (by decide) he).symm

theorem seven_pow_period : 7 ^ (foldP - 1) % foldP = 1 := by
  rw [seven_pow_mod (by decide)]
  decide +kernel

theorem seven_pow_period_div : ∀ q ∈ periodPrimes, firstPower (powerTable 7) ((foldP - 1) / q) ≠ 1 := by decide +kernel

/-- The order of 7 is P - 1: a lesser one would divide (P - 1) / q for a prime q of P - 1. -/
theorem seven_pow_ne_one {d : Nat} (h0 : 0 < d) (hd : d < foldP - 1) : 7 ^ d % foldP ≠ 1 := by
  intro hone
  have hgcd := pow_gcd_mod_eq_one (by decide) d (foldP - 1) hone seven_pow_period
  obtain ⟨m, hm⟩ := Nat.gcd_dvd_right d (foldP - 1)
  have hle : Nat.gcd d (foldP - 1) ≤ d := Nat.gcd_le_left _ h0
  generalize Nat.gcd d (foldP - 1) = g at hgcd hm hle
  have hne : m ≠ 1 := by
    rintro rfl
    omega
  obtain ⟨q, hq, r, rfl⟩ := exists_periodPrime_dvd ⟨g, by rw [hm, Nat.mul_comm]⟩ hne
  have hpos : 0 < q := (by decide : ∀ q ∈ periodPrimes, 0 < q) q hq
  have hdiv : (foldP - 1) / q = g * r := by
    rw [hm, Nat.mul_left_comm, Nat.mul_div_cancel_left _ hpos]
  have hlt : (foldP - 1) / q < 2 ^ 31 := Nat.lt_of_le_of_lt (Nat.div_le_self _ _) (by decide)
  refine seven_pow_period_div q hq ?_
  rw [← seven_pow_mod hlt, hdiv]
  exact pow_mul_mod_eq_one (by decide) hgcd r

/-- W^(P - 1) is 1 modulo P, since W is a power of 7. -/
theorem pow_period {w : Nat} (h0 : 0 < w) (hw : w < foldP) : w ^ (foldP - 1) % foldP = 1 := by
  obtain ⟨i, rfl⟩ := exists_pow_mod_eq (by decide) seven_pow_period (fun d => seven_pow_ne_one) h0 hw
  rw [← Nat.pow_mod, ← Nat.pow_mul, Nat.mul_comm]
  exact pow_mul_mod_eq_one (by decide) seven_pow_period i

/-- Exponents count modulo P - 1. -/
theorem pow_mod_period {w : Nat} (h0 : 0 < w) (hw : w < foldP) (j : Nat) :
    w ^ (j % (foldP - 1)) % foldP = w ^ j % foldP := by
  have hone : (w ^ (foldP - 1)) ^ (j / (foldP - 1)) % foldP = 1 := by
    rw [Nat.pow_mod, pow_period h0 hw, Nat.one_pow]
    rfl
  calc w ^ (j % (foldP - 1)) % foldP
      = w ^ (j % (foldP - 1)) * (w ^ (foldP - 1)) ^ (j / (foldP - 1)) % foldP := by rw [Nat.mul_mod, hone, Nat.mul_one, Nat.mod_mod]
    _ = w ^ j % foldP := by rw [← Nat.pow_mul, ← Nat.pow_add, Nat.mod_add_div]

/-! ## The streaming of a payload (R22, R31) -/

/-- The sum of the symbols, symbol `i` weighted by `p i`. -/
def weightedSum (payload : List Byte) (p : Nat → Nat) : Nat :=
  ((List.range ((payload.length + 1) / 2)).map fun i => symbol payload i * p i).sum

theorem weightedSum_nil (p : Nat → Nat) : weightedSum [] p = 0 := rfl

theorem weightedSum_singleton (b : Byte) (p : Nat → Nat) : weightedSum [b] p = 256 * b.toNat * p 0 := by
  simp [weightedSum, symbol, byteAt]

theorem symbol_cons_cons_succ (a b : Byte) (bs : List Byte) (i : Nat) : symbol (a :: b :: bs) (i + 1) = symbol bs i := by
  simp [symbol, byteAt, Nat.mul_add]

theorem weightedSum_cons_cons (a b : Byte) (bs : List Byte) (p : Nat → Nat) :
    weightedSum (a :: b :: bs) p = (256 * a.toNat + b.toNat) * p 0 + weightedSum bs fun i => p (i + 1) := by
  have hlen : ((a :: b :: bs).length + 1) / 2 = (bs.length + 1) / 2 + 1 := by simp; omega
  simp only [weightedSum, hlen, List.range_succ_eq_map, List.map_cons, List.sum_cons, List.map_map, Function.comp_def,
    symbol_cons_cons_succ]
  simp [symbol, byteAt]

/-- From a unit that holds no odd byte and has `p` as its running power, the bytes left of the payload add the symbols they hold,
weighted by the powers from `p` on. -/
theorem foldl_foldByte_acc {w len p : Nat} {u : FoldUnit} {bs : List Byte} (hw : w < foldP) (hp : p < foldP)
    (hodd : u.odd = none) (hpower : u.power = some p) (hlen : u.folded + bs.length = len) :
    (bs.foldl (foldByte w len) u).acc = u.acc + weightedSum bs fun i => p * w ^ i % foldP := by
  match bs with
  | [] => simp [weightedSum_nil]
  | [b] =>
    have hlast : u.folded + 1 = len := hlen
    simp [foldByte, foldSymbol, hodd, hpower, hlast, weightedSum_singleton, Nat.mod_eq_of_lt hp]
  | a :: b :: bs =>
    have hmore : u.folded + 1 ≠ len := by simp at hlen; omega
    have hpair : foldByte w len (foldByte w len u a) b =
        { u with
          acc := u.acc + (256 * a.toNat + b.toNat) * p, power := some (p * w % foldP), odd := none,
          folded := u.folded + 2 } := by
      simp [foldByte, foldSymbol, hodd, hpower, hmore, foldReduce_mul hp hw]
    rw [List.foldl_cons, List.foldl_cons, hpair,
      foldl_foldByte_acc hw (Nat.mod_lt _ foldP_pos) rfl rfl (by simp at hlen ⊢; omega), weightedSum_cons_cons]
    simp [Nat.mod_eq_of_lt hp, Nat.add_assoc, Nat.pow_succ', ← Nat.mul_assoc]

/-- Powers that agree modulo P weigh the same modulo P. -/
theorem weightedSum_mod_congr {p q : Nat → Nat} (h : ∀ i, p i % foldP = q i % foldP) (payload : List Byte) :
    weightedSum payload p % foldP = weightedSum payload q % foldP := by
  unfold weightedSum
  induction List.range ((payload.length + 1) / 2) with
  | nil => rfl
  | cons i l ih =>
    rw [List.map_cons, List.map_cons, List.sum_cons, List.sum_cons, Nat.add_mod, Nat.mul_mod, h, ← Nat.mul_mod, ih,
      ← Nat.add_mod]

theorem symbol_lt (payload : List Byte) (i : Nat) : symbol payload i < 65536 := by
  unfold symbol
  omega

theorem sum_map_le {f : Nat → Nat} {b : Nat} (h : ∀ i, f i ≤ b) (l : List Nat) : (l.map f).sum ≤ l.length * b := by
  induction l with
  | nil => exact Nat.zero_le _
  | cons i l ih =>
    rw [List.map_cons, List.sum_cons, List.length_cons, Nat.succ_mul, Nat.add_comm]
    exact Nat.add_le_add ih (h i)

/-- The accumulator of a payload of at most 65536 bytes, a sum of at most 32768 products, fits in 64 bits. -/
theorem weightedSum_lt {payload : List Byte} {p : Nat → Nat} (hlen : payload.length ≤ 65536) (hp : ∀ i, p i < foldP) :
    weightedSum payload p < 2 ^ 64 := by
  have hterm : ∀ i, symbol payload i * p i ≤ 65536 * foldP := fun i =>
    Nat.mul_le_mul (Nat.le_of_lt (symbol_lt payload i)) (Nat.le_of_lt (hp i))
  have hsum := sum_map_le hterm (List.range ((payload.length + 1) / 2))
  rw [List.length_range] at hsum
  calc weightedSum payload p
      ≤ (payload.length + 1) / 2 * (65536 * foldP) := hsum
    _ ≤ 32768 * (65536 * foldP) := Nat.mul_le_mul_right _ (by omega)
    _ < 2 ^ 64 := by decide

/-! ## The block sum (R23, R24, R29) -/

theorem firstExponent_lt (k c : Nat) : firstExponent k c < 2 ^ 31 :=
  Nat.lt_trans (Nat.mod_lt _ (by decide : 0 < foldP - 1)) (by decide)

/-- The first running power of a block is the weight of its first global index. -/
theorem firstPower_firstExponent {w : Nat} (h0 : 0 < w) (hw : w < foldP) (k c : Nat) :
    firstPower (powerTable w) (firstExponent k c) = w ^ (k * (blockSize c / 2)) % foldP := by
  rw [firstPower_powerTable hw (firstExponent_lt k c), firstExponent, pow_mod_period h0 hw]

theorem blockSize_div_two (c : Nat) : blockSize c / 2 = 2 * (128 * 2 ^ c) := by
  unfold blockSize
  omega

theorem blockSize_le {c : Nat} (hc : c ≤ 7) : blockSize c ≤ 65536 :=
  Nat.mul_le_mul_left 512 (Nat.pow_le_pow_right (by decide) hc : 2 ^ c ≤ 2 ^ 7)

theorem blockSum_eq {w c : Nat} (h0 : 0 < w) (hw : w < foldP) (hc : c ≤ 7) (k : Nat) {payload : List Byte}
    (hlen : payload.length ≤ blockSize c) :
    blockSum w k c payload = weightedSum payload (fun i => w ^ (k * (blockSize c / 2) + i)) % foldP := by
  have hp : firstPower (powerTable w) (firstExponent k c) < foldP :=
    firstPower_firstExponent h0 hw k c ▸ Nat.mod_lt _ foldP_pos
  have hacc : blockSum w k c payload =
      foldReduce (weightedSum payload fun i => firstPower (powerTable w) (firstExponent k c) * w ^ i % foldP) :=
    congrArg foldReduce ((foldl_foldByte_acc hw hp rfl rfl (Nat.zero_add _)).trans (Nat.zero_add _))
  rw [hacc, firstPower_firstExponent h0 hw,
    foldReduce_eq_mod (weightedSum_lt (Nat.le_trans hlen (blockSize_le hc)) fun i => Nat.mod_lt _ foldP_pos)]
  refine weightedSum_mod_congr (fun i => ?_) payload
  rw [Nat.mod_mod, Nat.mod_mul_mod, ← Nat.pow_add]

/-- P - 1 is twice the odd number 1073741823, and the first index of a block is its number times a power of two. -/
theorem period_dvd_firstIndex (k c : Nat) : foldP - 1 ∣ k * (blockSize c / 2) ↔ 1073741823 ∣ k := by
  have hcop : Nat.Coprime 1073741823 (128 * 2 ^ c) :=
    Nat.Coprime.mul_right (by decide) (Nat.Coprime.pow_right c (by decide))
  rw [blockSize_div_two, show foldP - 1 = 2 * 1073741823 from rfl, Nat.mul_left_comm, Nat.mul_dvd_mul_iff_left (by decide)]
  exact ⟨hcop.dvd_of_dvd_mul_right, fun h => Nat.dvd_mul_right_of_dvd h _⟩

theorem globalIndex_le {k c i : Nat} (hk : k < 2 ^ 32) (hc : c ≤ 7) (hi : i < blockSize c / 2) :
    k * (blockSize c / 2) + i ≤ (2 ^ 32 - 1) * 32768 + 32767 := by
  have hb : blockSize c / 2 ≤ 32768 := Nat.div_le_div_right (blockSize_le hc)
  have hmul : k * (blockSize c / 2) ≤ (2 ^ 32 - 1) * 32768 := Nat.mul_le_mul (by omega) hb
  omega

/-- Settles O26: the accumulator is the weighted sum from the first running power, and no 64-bit value overflows. -/
theorem blockSumIsWeightedSum : Obligations.BlockSumIsWeightedSum := by
  refine ⟨fun w k c payload h2 hw _ hc _ hlen => ?_, fun w h2 hw => ?_, fun k c _ _ => period_dvd_firstIndex k c,
    fun k c i hk hc hi => globalIndex_le hk hc hi, by decide⟩
  · exact blockSum_eq (by omega) (by omega) hc k hlen
  · exact pow_period (by omega) (by omega)

end Sys2Proof.Machine
end

section
/-! PROOFS. When the power table and the accepted setup change (R27, R193): what each operation of the station keeps of them. -/

namespace Sys2Proof.Machine

@[simp] theorem FoldUnit.clear_table (u : FoldUnit) : u.clear.table = u.table := rfl
@[simp] theorem FoldUnit.clear_entries (u : FoldUnit) : u.clear.entries = u.entries := rfl

/-- The power table, its state and the accepted setup stand as they were. -/
def Chip.keepsTable (c d : Chip) : Prop :=
  d.fold.table = c.fold.table ∧ d.fold.entries = c.fold.entries ∧ d.cmd.setup = c.cmd.setup

namespace Chip

theorem keepsTable_refl (c : Chip) : c.keepsTable c := ⟨rfl, rfl, rfl⟩

theorem keepsTable.trans {c d e : Chip} (h : c.keepsTable d) (k : d.keepsTable e) : c.keepsTable e :=
  ⟨k.1.trans h.1, k.2.1.trans h.2.1, k.2.2.trans h.2.2⟩

/-- An operation whose frame has the fold unit and the setup keeps the table. -/
theorem keepsTable_of_fold {c d : Chip} (hf : d.fold = c.fold) (hs : d.cmd.setup = c.cmd.setup) : c.keepsTable d :=
  ⟨by rw [hf], by rw [hf], hs⟩

end Chip

/-! ## The fold unit at work (R31 to R33) -/

namespace FoldUnit

/-- Folding leaves the table and its state as they are. -/
def keepsTable (u v : FoldUnit) : Prop :=
  v.table = u.table ∧ v.entries = u.entries

end FoldUnit

theorem foldSymbol_keepsTable (w sym : Nat) (u : FoldUnit) : u.keepsTable (foldSymbol w sym u) := ⟨rfl, rfl⟩

theorem foldByte_keepsTable (w len : Nat) (u : FoldUnit) (b : Byte) : u.keepsTable (foldByte w len u b) := by
  unfold foldByte
  dsimp only
  split
  · exact foldSymbol_keepsTable w _ _
  · split
    · exact foldSymbol_keepsTable w _ _
    · exact ⟨rfl, rfl⟩

theorem foldl_foldByte_keepsTable (w len : Nat) (u : FoldUnit) (bs : List Byte) :
    u.keepsTable (bs.foldl (foldByte w len) u) := by
  induction bs generalizing u with
  | nil => exact ⟨rfl, rfl⟩
  | cons b bs ih =>
    obtain ⟨ht, he⟩ := foldByte_keepsTable w len u b
    obtain ⟨ht', he'⟩ := ih (foldByte w len u b)
    exact ⟨ht'.trans ht, he'.trans he⟩

theorem finishWalk_keepsTable (w len : Nat) (u : FoldUnit) : u.keepsTable (finishWalk w len u) := by
  unfold finishWalk
  split
  · exact ⟨rfl, rfl⟩
  · exact foldl_foldByte_keepsTable w len _ _

theorem handOver_keepsTable (len : Nat) (u : FoldUnit) : u.keepsTable (handOver len u).1 := by
  unfold handOver
  split <;> exact ⟨rfl, rfl⟩

namespace Chip

/-! ## The intake -/

/-- A landing buffer taken clears the fold unit for the new segment, which leaves its table. -/
@[simp] theorem stepBuffer_table (c : Chip) (g : Segment) :
    (c.stepBuffer g).fold.table = c.fold.table ∧ (c.stepBuffer g).fold.entries = c.fold.entries := by
  unfold stepBuffer
  dsimp only
  split
  · simp
  · next h => simp [takeHandle_frame h]

@[simp] theorem stepReserve_table (c : Chip) (cover : List Extent) (feeds : Bool) (g : Segment) :
    (c.stepReserve cover feeds g).fold.table = c.fold.table ∧ (c.stepReserve cover feeds g).fold.entries = c.fold.entries := by
  unfold stepReserve
  split
  · simp
  · cases feeds <;> dsimp only <;> repeat' split
    all_goals simp

@[simp] theorem stepData_table (c : Chip) (i : Nat) (g : Segment) :
    (c.stepData i g).fold.table = c.fold.table ∧ (c.stepData i g).fold.entries = c.fold.entries := by
  unfold stepData
  repeat' split
  all_goals simp

@[simp] theorem stepClose_fold (c : Chip) (i : Nat) (g : Segment) : (c.stepClose i g).fold = c.fold := by
  unfold stepClose
  split
  · rfl
  · split
    · dsimp only
      split <;> simp
    · repeat' split
      all_goals simp

@[simp] theorem stepContext_table (c : Chip) (i : Nat) (g : Segment) :
    (c.stepContext i g).fold.table = c.fold.table ∧ (c.stepContext i g).fold.entries = c.fold.entries := by
  unfold stepContext
  split <;> simp

@[simp] theorem stepCreate_table (c : Chip) (role : Role) (g : Segment) :
    (c.stepCreate role g).fold.table = c.fold.table ∧ (c.stepCreate role g).fold.entries = c.fold.entries := by
  unfold stepCreate
  repeat' split
  all_goals simp

@[simp] theorem stepRole_table (c : Chip) (g : Segment) :
    (c.stepRole g).fold.table = c.fold.table ∧ (c.stepRole g).fold.entries = c.fold.entries := by
  unfold stepRole
  repeat' split
  all_goals simp

@[simp] theorem stepLookup_table (c : Chip) (g : Segment) :
    (c.stepLookup g).fold.table = c.fold.table ∧ (c.stepLookup g).fold.entries = c.fold.entries := by
  unfold stepLookup
  repeat' split
  all_goals simp

@[simp] theorem judgeHeader_table (c : Chip) (bytes : List Byte) :
    (c.judgeHeader bytes).fold.table = c.fold.table ∧ (c.judgeHeader bytes).fold.entries = c.fold.entries := by
  unfold judgeHeader
  split
  · simp
  · split
    · simp
    · dsimp only
      split <;> simp

theorem takeLastHeaderByte_keepsTable (c : Chip) (b : Byte) : c.keepsTable (c.takeLastHeaderByte b) := by
  refine ⟨?_, ?_, by simp⟩ <;> unfold takeLastHeaderByte <;> split <;> simp

theorem takeCloseFlag_keepsTable (c : Chip) (good : Bool) : c.keepsTable (c.takeCloseFlag good) := by
  refine ⟨?_, ?_, by simp⟩ <;> unfold takeCloseFlag <;> repeat' split
  all_goals simp

theorem resumeIntake_keepsTable (c : Chip) : c.keepsTable c.resumeIntake := by
  refine ⟨?_, ?_, by simp⟩ <;> unfold resumeIntake <;> split
  · rfl
  · dsimp only
    split <;> split <;> simp
  · rfl
  · dsimp only
    split <;> split <;> simp

theorem handSum_keepsTable {c : Chip} {u : FoldUnit} (hu : c.fold.keepsTable u) (d : Chip) (hd : d.cmd.setup = c.cmd.setup)
    (g : Segment) : c.keepsTable (d.handSum g u) := by
  obtain ⟨ht, he⟩ := hu
  obtain ⟨ht', he'⟩ := handOver_keepsTable g.hdr.length u
  exact ⟨by simp [handSum, ht', ht], by simp [handSum, he', he], by simp [hd]⟩

theorem takePayload_keepsTable (c : Chip) (b : Byte) : c.keepsTable (c.takePayload b) := by
  unfold takePayload
  split
  · split
    · exact c.keepsTable_refl
    · dsimp only
      split
      · exact c.keepsTable_refl
      · split
        · split
          · exact ⟨by simp, by simp, by simp⟩
          · exact handSum_keepsTable (foldByte_keepsTable _ _ _ _) _ (by simp) _
        · exact keepsTable_of_fold (by simp) (by simp)
  · exact c.keepsTable_refl

theorem endWalk_keepsTable (c : Chip) : c.keepsTable c.endWalk := by
  unfold endWalk
  split
  · exact c.keepsTable_refl
  · split
    · exact handSum_keepsTable (finishWalk_keepsTable _ _ _) _ rfl _
    · exact c.keepsTable_refl

@[simp] theorem completeAnchor_fold (c : Chip) (i : Nat) (ctx : Context) (a : Anchor) (g : Segment) (b : BlockItem) :
    (c.completeAnchor i ctx a g b).fold = c.fold := by
  unfold completeAnchor
  split
  · simp
  · split
    · simp
    · dsimp only
      repeat' split
      all_goals simp

@[simp] theorem completeFeeder_fold (c : Chip) (i : Nat) (ctx : Context) (f : Feeder) (g : Segment) (b : BlockItem) :
    (c.completeFeeder i ctx f g b).fold = c.fold := by
  unfold completeFeeder
  dsimp only
  split <;> simp

@[simp] theorem complete_fold (c : Chip) (g : Segment) (b : BlockItem) : (c.complete g b).fold = c.fold := by
  unfold complete
  repeat' split
  all_goals simp

theorem takeLandingFlag_keepsTable (c : Chip) (good : Bool) : c.keepsTable (c.takeLandingFlag good) := by
  obtain ⟨ht, he, -⟩ := c.endWalk_keepsTable
  refine ⟨?_, ?_, by simp⟩ <;> unfold takeLandingFlag <;> dsimp only <;> repeat' split
  all_goals simp [ht, he]

theorem restartIntake_keepsTable (c : Chip) : c.keepsTable c.restartIntake := by
  refine ⟨?_, ?_, by simp⟩ <;> unfold restartIntake <;> repeat' split
  all_goals simp

/-! ## Frames heard and commands taken -/

/-- A frame heard has the effects of its place on the medium alone, or is handed on once its sender's presence is noted. -/
theorem hear_cases (c : Chip) (k : FrameKind) (f : HeardFrame) (handOn : Chip → Chip) :
    c.keepsTable (c.hear k f handOn) ∨ c.hear k f handOn = handOn (c.frameEnds.validFrom f.src) := by
  unfold hear
  repeat' split
  · exact .inl c.keepsTable_refl
  · exact .inl (keepsTable_of_fold (by simp) (by simp))
  · exact .inl (keepsTable_of_fold (by simp) (by simp))
  · exact .inl c.keepsTable_refl
  · exact .inr rfl

theorem hear_keepsTable {handOn : Chip → Chip} (h : ∀ c : Chip, c.keepsTable (handOn c)) (c : Chip) (k : FrameKind)
    (f : HeardFrame) : c.keepsTable (c.hear k f handOn) := by
  obtain hk | heq := c.hear_cases k f handOn
  · exact hk
  · rw [heq]
    exact (keepsTable_of_fold (by simp) (by simp)).trans (h (c.frameEnds.validFrom f.src))

theorem answer_keepsTable (c : Chip) (n k : Byte) (r : Reply) : c.keepsTable (c.answer n k r) :=
  keepsTable_of_fold (by simp) (by simp)

/-- A command taken keeps the table, or its gate is open and what changes the table is its rule (R187, R188). -/
theorem takeCommand_cases (c : Chip) (row : CommandRow) (body : List Byte) (rule : Chip → Chip × Option Reply) :
    c.keepsTable (c.takeCommand row body rule) ∨
      (c.gate row = none ∧ (rule c).1.keepsTable (c.takeCommand row body rule)) := by
  have hheld (held : List Byte) : c.keepsTable (c.offerAnswer held) := keepsTable_of_fold (by simp) (by simp)
  unfold takeCommand
  dsimp only
  repeat' split
  · exact .inl (hheld _)
  · exact .inl (c.answer_keepsTable _ _ _)
  · next hgate _ _ _ => exact .inr ⟨hgate, (rule c).1.answer_keepsTable _ _ _⟩
  · next hgate _ _ => exact .inr ⟨hgate, (rule c).1.keepsTable_refl⟩
  · exact .inl (c.answer_keepsTable _ _ _)
  · next hgate _ _ _ => exact .inr ⟨hgate, (rule c).1.answer_keepsTable _ _ _⟩
  · next hgate _ _ => exact .inr ⟨hgate, (rule c).1.keepsTable_refl⟩

/-- The same of a COMMAND frame: its rule acts on the station once the frame has been heard. -/
theorem command_cases (c : Chip) (row : CommandRow) (f : HeardFrame) (rule : Chip → Chip × Option Reply) :
    c.keepsTable (c.command row f rule) ∨
      ((c.frameEnds.validFrom f.src).gate (judgedRow row f.body) = none ∧
        (rule (c.frameEnds.validFrom f.src)).1.keepsTable (c.command row f rule)) := by
  have hheard : c.keepsTable (c.frameEnds.validFrom f.src) := keepsTable_of_fold (by simp) (by simp)
  unfold command
  split
  · obtain hk | heq := c.hear_cases .command f fun d =>
      if maskNames d.self f.body then d.takeCommand (judgedRow row f.body) f.body rule else d
    · exact .inl hk
    · rw [heq]
      split
      · exact (takeCommand_cases _ _ _ rule).imp_left hheard.trans
      · exact .inl hheard
  · exact .inl c.keepsTable_refl

theorem command_keepsTable {rule : Chip → Chip × Option Reply} (h : ∀ c : Chip, c.keepsTable (rule c).1) (c : Chip)
    (row : CommandRow) (f : HeardFrame) : c.keepsTable (c.command row f rule) := by
  obtain hk | ⟨-, hr⟩ := c.command_cases row f rule
  · exact hk
  · exact (keepsTable_of_fold (by simp) (by simp)).trans ((h _).trans hr)

/-! ## The rules of the commands other than GO -/

theorem setupPartRule_keepsTable (body : List Byte) (c : Chip) : c.keepsTable (setupPartRule body c).1 := by
  unfold setupPartRule
  repeat' split
  all_goals exact ⟨rfl, rfl, rfl⟩

theorem queryRule_keepsTable (body : List Byte) (c : Chip) : c.keepsTable (queryRule body c).1 := by
  unfold queryRule
  split <;> exact c.keepsTable_refl

theorem abortRule_keepsTable (body : List Byte) (c : Chip) : c.keepsTable (abortRule body c).1 := by
  unfold abortRule
  repeat' split
  · exact keepsTable_of_fold (by simp) (by simp)
  · exact c.keepsTable_refl
  · exact c.keepsTable_refl

theorem quiesceRule_keepsTable (c : Chip) : c.keepsTable (quiesceRule c).1 := by
  unfold quiesceRule
  split <;> exact ⟨rfl, rfl, rfl⟩

theorem resumeRule_keepsTable (c : Chip) : c.keepsTable (resumeRule c).1 := by
  unfold resumeRule
  split <;> exact ⟨rfl, rfl, rfl⟩

theorem countersRule_keepsTable (body : List Byte) (c : Chip) : c.keepsTable (countersRule body c).1 := by
  unfold countersRule
  dsimp only
  split <;> exact ⟨rfl, rfl, rfl⟩

/-- RESTART clears the fold unit's segment and keeps its table and the setup (R198). -/
theorem restartRule_keepsTable (number : Byte) (c : Chip) : c.keepsTable (restartRule number c).1 :=
  keepsTable.trans (d := (c.withCmd { c.cmd with
    mode := .restarting, faultPin := false, faultAtEnd := false, restartNumber := number }).withLink
      { c.link with strike := false }) ⟨rfl, rfl, rfl⟩ (restartIntake_keepsTable _)

theorem badRule_keepsTable (c : Chip) : c.keepsTable (badRule c).1 :=
  c.keepsTable_refl

theorem restartGather_keepsTable (c : Chip) : c.keepsTable c.restartGather := by
  unfold restartGather
  split
  · refine keepsTable_of_fold ?_ ?_ <;> unfold leaveRestart <;> dsimp only <;> split <;>
      simp [answerRestart, gatherAndDiscard, discardAll]
  · exact c.keepsTable_refl

/-! ## GO and the end of the build -/

/-- GO keeps the station, or accepts a setup in WAITING-SETUP (R191, R193). -/
theorem goRule_cases (c : Chip) :
    (goRule c).1 = c ∨ (c.cmd.mode = .waitingSetup ∧ ∃ su, (goRule c).1 = c.acceptSetup su) := by
  unfold goRule
  split
  · next hmode =>
    split
    · exact .inl rfl
    · next su _ => exact .inr ⟨hmode, su, rfl⟩
  · exact .inl rfl

theorem acceptSetup_table (c : Chip) (su : Setup) :
    (c.acceptSetup su).fold.table = .building ∧ (c.acceptSetup su).cmd.setup = some su :=
  ⟨rfl, rfl⟩

/-- The gate of GO is shut while the table is being built (R188). -/
theorem table_ne_building_of_gate_go {c : Chip} {body : List Byte} (h : c.gate (judgedRow .go body) = none) :
    c.fold.table ≠ .building := by
  intro hb
  simp [gate, judgedRow, hb] at h

/-- A GO heard keeps the table and the setup, or is accepted in WAITING-SETUP with no table being built. -/
theorem command_go_cases (c : Chip) (f : HeardFrame) :
    c.keepsTable (c.command .go f fun c => c.goRule) ∨
      (c.cmd.mode = .waitingSetup ∧ c.fold.table ≠ .building ∧
        (c.command .go f fun c => c.goRule).fold.table = .building ∧
        (c.command .go f fun c => c.goRule).cmd.setup ≠ none) := by
  have hheard : c.keepsTable (c.frameEnds.validFrom f.src) := keepsTable_of_fold (by simp) (by simp)
  have hmode : (c.frameEnds.validFrom f.src).cmd.mode = c.cmd.mode := by simp
  obtain hk | ⟨hgate, hrule⟩ := c.command_cases .go f fun c => c.goRule
  · exact .inl hk
  · obtain hsame | ⟨hwaiting, su, hacc⟩ := goRule_cases (c.frameEnds.validFrom f.src)
    · rw [hsame] at hrule
      exact .inl (hheard.trans hrule)
    · rw [hacc] at hrule
      obtain ⟨htable, -, hsetup⟩ := hrule
      obtain ⟨hbuilding, hsome⟩ := acceptSetup_table (c.frameEnds.validFrom f.src) su
      exact .inr ⟨hmode ▸ hwaiting, hheard.1 ▸ table_ne_building_of_gate_go hgate, htable.trans hbuilding,
        by simp [hsetup, hsome]⟩

/-- POWER_TABLE_READY keeps the station, or makes a table being built READY and keeps the setup (R27). -/
theorem tableReady_cases (c : Chip) :
    c.tableReady = c ∨
      (c.fold.table = .building ∧ c.tableReady.fold.table = .ready ∧ c.tableReady.cmd.setup = c.cmd.setup) := by
  by_cases hb : c.fold.table = .building
  · refine .inr ⟨hb, ?_, by simp⟩
    unfold tableReady
    rw [if_pos hb]
    dsimp only
    split <;> simp
  · exact .inl (by simp [tableReady, hb])

end Chip

/-! ## The commands -/

theorem execGo_cases {f : HeardFrame} {s t : State} (h : execGo f s = .next t) :
    s.chip.keepsTable t.chip ∨
      (s.chip.cmd.mode = .waitingSetup ∧ s.chip.fold.table ≠ .building ∧ t.chip.fold.table = .building ∧
        t.chip.cmd.setup ≠ none) := by
  unfold execGo at h
  split at h
  · obtain rfl := Host.Outcome.next.inj h
    exact .inl s.chip.keepsTable_refl
  · obtain rfl := Host.Outcome.next.inj h
    exact s.chip.command_go_cases f

theorem execPowerTableReady_cases {s t : State} (h : execPowerTableReady s = .next t) :
    s.chip.keepsTable t.chip ∨
      (s.chip.fold.table = .building ∧ t.chip.fold.table = .ready ∧ t.chip.cmd.setup = s.chip.cmd.setup) := by
  obtain rfl := Host.Outcome.next.inj h
  rw [State.withChip_chip]
  split
  · exact .inl s.chip.keepsTable_refl
  · obtain hsame | hend := s.chip.tableReady_cases
    · rw [hsame]
      exact .inl s.chip.keepsTable_refl
    · exact .inr hend

theorem onStation_keepsTable {f : Chip → Chip} (hf : ∀ c : Chip, c.keepsTable (f c)) {s t : State}
    (h : onStation f s = .next t) : s.chip.keepsTable t.chip := by
  obtain rfl := Host.Outcome.next.inj h
  rw [State.withChip_chip]
  split
  · exact s.chip.keepsTable_refl
  · exact hf s.chip

theorem execConsumerWordWritten_keepsTable {cls : BufClass} {s t : State} (h : execConsumerWordWritten cls s = .next t) :
    s.chip.keepsTable t.chip := by
  unfold execConsumerWordWritten at h
  dsimp only at h
  repeat' split at h
  all_goals obtain rfl := Host.Outcome.next.inj h
  all_goals exact Chip.keepsTable_of_fold (by simp) (by simp)

theorem execPayloadWriteDone_keepsTable {hd : Handle} {n : Nat} {s t : State} (h : execPayloadWriteDone hd n s = .next t) :
    s.chip.keepsTable t.chip := by
  unfold execPayloadWriteDone at h
  dsimp only at h
  split at h
  all_goals obtain rfl := Host.Outcome.next.inj h
  all_goals exact ⟨rfl, rfl, rfl⟩

theorem execNoticeWriteEnd_keepsTable {s t : State} (h : execNoticeWriteEnd s = .next t) : s.chip.keepsTable t.chip := by
  unfold execNoticeWriteEnd at h
  dsimp only at h
  repeat' split at h
  all_goals obtain rfl := Host.Outcome.next.inj h
  all_goals exact Chip.keepsTable_of_fold (by simp) (by simp)

theorem execPinResetRelease_keepsTable {straps : Station} {s t : State} (h : execPinResetRelease straps s = .next t) :
    s.chip.keepsTable t.chip := by
  unfold execPinResetRelease at h
  split at h
  all_goals obtain rfl := Host.Outcome.next.inj h
  all_goals exact ⟨rfl, rfl, rfl⟩

open Chip in
/-- Every command but PIN_RESET, GO and POWER_TABLE_READY keeps the table and the setup. -/
theorem exec_keepsTable {i : Instr} {s t : State} (h : exec i s = .next t) (hreset : i ≠ .pinReset) (hgo : ∀ f, i ≠ .go f)
    (hready : i ≠ .powerTableReady) : s.chip.keepsTable t.chip := by
  cases i
  case pinReset => exact absurd rfl hreset
  case go f => exact absurd rfl (hgo f)
  case powerTableReady => exact absurd rfl hready
  case pinResetRelease => exact execPinResetRelease_keepsTable h
  case segmentHeader b => exact onStation_keepsTable (fun c => c.takeLastHeaderByte_keepsTable b) h
  case closeFlag good => exact onStation_keepsTable (fun c => c.takeCloseFlag_keepsTable good) h
  case payloadByte b => exact onStation_keepsTable (fun c => c.takePayload_keepsTable b) h
  case tableWalkDone => exact onStation_keepsTable endWalk_keepsTable h
  case landingFlag good => exact onStation_keepsTable (fun c => c.takeLandingFlag_keepsTable good) h
  case intakeRoomGranted => exact onStation_keepsTable resumeIntake_keepsTable h
  case discardByte => exact onStation_keepsTable keepsTable_refl h
  case answerHeard f => exact onStation_keepsTable (fun c => c.hear_keepsTable keepsTable_refl _ f) h
  case setupPart f => exact onStation_keepsTable (fun c => command_keepsTable (setupPartRule_keepsTable f.body) c _ f) h
  case query f => exact onStation_keepsTable (fun c => command_keepsTable (queryRule_keepsTable f.body) c _ f) h
  case abort f => exact onStation_keepsTable (fun c => command_keepsTable (abortRule_keepsTable f.body) c _ f) h
  case quiesce f => exact onStation_keepsTable (fun c => command_keepsTable quiesceRule_keepsTable c _ f) h
  case resume f => exact onStation_keepsTable (fun c => command_keepsTable resumeRule_keepsTable c _ f) h
  case counters f => exact onStation_keepsTable (fun c => command_keepsTable (countersRule_keepsTable f.body) c _ f) h
  case restart f => exact onStation_keepsTable (fun c => command_keepsTable (restartRule_keepsTable _) c _ f) h
  case badCommand f => exact onStation_keepsTable (fun c => command_keepsTable badRule_keepsTable c _ f) h
  case restartGather => exact onStation_keepsTable restartGather_keepsTable h
  case consumerWordWritten => exact execConsumerWordWritten_keepsTable h
  case noticeWriteEnd => exact execNoticeWriteEnd_keepsTable h
  case payloadWriteDone => exact execPayloadWriteDone_keepsTable h
  all_goals simp only [exec, execDiscardFlag, execValidIdle, execArbitrationLost, execFrameSent, execCollision, execFalseStart,
    execLongFrame, execBadFrame, execLinkSettleDone, execHoldTimerExpiry, execBeaconPoint, execPresenceExpiry, execBeaconHeard,
    execClaimHeard, execReassertHeard, execReleaseHeard, execTallyReceived, execVerdictReceived, execBatchDelayExpiry,
    execSettleExpiry, execAnchorIdleExpiry, execFeederIdleExpiry, execVerdictTimerExpiry, execHoldWaitExpiry,
    execProducerWordArrives, execRingEntryArrives, execNoticeWriteBegin, execConsumerPollExpiry, execConsumerWordArrives,
    execHeaderByte, execMediumLeavesValidIdle] at h
  case beaconHeard | claimHeard | reassertHeard | releaseHeard | tallyReceived | verdictReceived =>
    exact onStation_keepsTable (hear_keepsTable (fun c => keepsTable_of_fold (by simp) (by simp)) · _ _) h
  case badFrame | consumerWordArrives =>
    refine onStation_keepsTable (fun c => ?_) h
    split <;> exact keepsTable_of_fold (by simp) (by simp)
  case producerWordArrives | ringEntryArrives =>
    refine onStation_keepsTable (fun c => ?_) h
    unfold refillAnswer
    split <;> exact keepsTable_of_fold (by simp) (by simp)
  all_goals exact onStation_keepsTable (fun c => keepsTable_of_fold (by simp) (by simp)) h

/-- Settles O13, by the events: PIN_RESET, an accepted GO and the end of the build change the table or the setup as R185, R193 and
R27 say, and every other command keeps both. -/
theorem powerTableMoves : Obligations.PowerTableMoves := by
  intro i s t h hmoves
  have hmoved : ¬ s.chip.keepsTable t.chip := by
    rintro ⟨htable, hentries, hsetup⟩
    simp [htable, hentries, hsetup] at hmoves
  by_cases hreset : i = .pinReset
  · subst hreset
    obtain rfl := Host.Outcome.next.inj h
    exact .inl ⟨rfl, rfl, rfl⟩
  by_cases hready : i = .powerTableReady
  · subst hready
    obtain hk | ⟨hbuilding, hend⟩ := execPowerTableReady_cases h
    · exact absurd hk hmoved
    · exact .inr (.inr ⟨rfl, hbuilding, hend⟩)
  by_cases hgo : ∃ f, i = .go f
  · obtain ⟨f, rfl⟩ := hgo
    obtain hk | haccepted := execGo_cases h
    · exact absurd hk hmoved
    · exact .inr (.inl ⟨⟨f, rfl⟩, haccepted⟩)
  · exact absurd (exec_keepsTable h hreset (not_exists.mp hgo) hready) hmoved

end Sys2Proof.Machine
end
